-- ==== Sys2Proof/Word.lean ====
section
/-! DEFINITION. The block's value types: bytes, LED words, and intensities, which are exact rationals
(00_scope.md R5 `INTENSITY_FMT`, section 5.1; 92_eei_decisions.md D5). -/

namespace Sys2Proof

/-- Eight bits: a colour byte (30_encoding.md R61) or a key symbol (R67). -/
abbrev Byte := BitVec 8

/-- The 32-bit LED word, format W (30_encoding.md R61). -/
abbrev Word := BitVec 32

/-- An intensity: a value of `Q` with exact arithmetic (00_scope.md section 5.1; 40_color_encoder.md R94). -/
abbrev Intensity := Rat

/-- A row or column index, 0..3 (20_memory.md R43 asks for this type). -/
abbrev Index4 := Fin 4

/-- A pixel index, 0..24 (20_memory.md R43). -/
abbrev PixelIndex := Fin 25

end Sys2Proof
end

