-- ==== Sys2Proof/Syntax.lean ====
section
/-! DEFINITION. The operations of KSLFS-1: one constructor for each row of spec/opcode_table.json, with the
operands the row or its rule gives. -/

namespace Sys2Proof

/-- A colour, three intensities in the order red, green, blue (10_state.md R23, 30_encoding.md R70). -/
structure Color where
  red : Intensity
  green : Intensity
  blue : Intensity
deriving DecidableEq, Repr, Inhabited

/-- A Pixel Intensity Mask: 25 intensities in chain order (10_state.md R22, 41_frame_renderer.md R102). -/
abbrev Mask := Vector Intensity 25

/-- An animation: exactly five masks, a colour, a rate in frames per second (43_host_sequences.md R150). -/
structure Animation where
  masks : Vector Mask 5
  color : Color
  fps : Nat
deriving DecidableEq, Repr

/-- What the host does for a key (43_host_sequences.md R156). -/
inductive Action where
  | play (anim : Animation)
  | fill (color : Color)
  | off
  /-- the melody of the excluded Tone Sequencer: the host issues nothing while it plays (R152, R156) -/
  | melody
  | nothing
deriving DecidableEq, Repr

/-- The static table from key symbol to action (43_host_sequences.md R156); the first entry of a symbol counts.
Three entries are fixed by the source (R157): `Machine.holdsFixedEntries`, which `Instr.wellFormed` asks for. -/
abbrev ActionTable := List (Byte × Action)

/-- `UNMAPPED_ACTION` (43_host_sequences.md R158, 93_implementation_defined.md U3). -/
inductive UnmappedAction where
  | noOp
  | offForDigits
deriving DecidableEq, Repr

/-- The operations, one per row of spec/opcode_table.json. -/
inductive Instr where
  /-- NOP (42_keypad_scanner.md R135) -/
  | nop
  /-- SCAN (42_keypad_scanner.md R120) -/
  | scan
  /-- RENDER with the operands its acceptance tick samples (41_frame_renderer.md R100, R104) -/
  | render (mask : Mask) (color : Color)
  /-- the reserved command code 0b11 (30_encoding.md R71) -/
  | reserved
  /-- FILL (41_frame_renderer.md R106) -/
  | fill (color : Color)
  /-- OFF (41_frame_renderer.md R107) -/
  | off
  /-- ENCODE (40_color_encoder.md R90) -/
  | encode (red green blue : Intensity)
  /-- the column drive vector, DriveCols (30_encoding.md R64) -/
  | coldrive (v : BitVec 4)
  /-- one row sample, ReadRow, and the bit it returned (30_encoding.md R65) -/
  | rowread (active : Bool)
  /-- the scan result KEY = {valid, row, col} (30_encoding.md R66) -/
  | keyresult (valid : Bool) (row col : Index4)
  /-- PLAY (43_host_sequences.md R150) -/
  | play (anim : Animation)
  /-- AWAIT_RELEASE (43_host_sequences.md R154) -/
  | awaitRelease
  /-- DISPATCH with its table and its default (43_host_sequences.md R153) -/
  | dispatch (table : ActionTable) (unmapped : UnmappedAction)
  /-- PAUSE (43_host_sequences.md R159) -/
  | pause (ms : Nat)
deriving DecidableEq, Repr

/-- The mask of all ones (30_encoding.md R73). -/
def Mask.ones : Mask := Vector.replicate 25 1

/-- The mask of all zeros (30_encoding.md R73). -/
def Mask.zeros : Mask := Vector.replicate 25 0

/-- The colour (0, 0, 0) (30_encoding.md R73). -/
def Color.black : Color := ⟨0, 0, 0⟩

end Sys2Proof
end

