-- ==== Sys2Proof/Config.lean ====
section
/-! DEFINITION. What an implementation fixes (the build parameters of 00_scope.md R5), the input ports of one tick
(10_state.md R34), and the free values the spec leaves open. -/

namespace Sys2Proof

/-- `CHANNEL_ORDER`: the three colour bytes, most significant first (30_encoding.md R63). -/
inductive ChannelOrder where
  | rgb | rbg | grb | gbr | brg | bgr
deriving DecidableEq, Repr

/-- `LOW_BYTE`, bits [7:0] of every LED word: 0x00, always (30_encoding.md R61, 93_implementation_defined.md U2). -/
def lowByte : Byte := 0x00

/-- The build constants that the step takes as arguments (00_scope.md R5, 10_state.md R27). -/
structure Params where
  /-- `CLK_HZ`, OPEN in R5. DESIGN CHOICE: a whole number of Hz (log 2) -/
  clkHz : Nat
  /-- `SETTLE_TICKS`, at least 1 (R5, D11) -/
  settleTicks : Nat
  /-- `DEBOUNCE_TICKS`, at least 1 (R5, D10) -/
  debounceTicks : Nat
  /-- `CHANNEL_ORDER` -/
  order : ChannelOrder
  /-- `KEYMAP[r][c]`, 8-bit key symbols (30_encoding.md R67) -/
  keymap : Vector (Vector Byte 4) 4
deriving DecidableEq, Repr

/-- The decided default of `DEBOUNCE_TICKS`: `ceil(CLK_HZ / 100)`, at least 1 (00_scope.md R5, 42_keypad_scanner.md R130). -/
def defaultDebounce (clkHz : Nat) : Nat := max 1 ((clkHz + 99) / 100)

/-- `CNT_W`: the smallest W with `2^W > max(DEBOUNCE_TICKS, SETTLE_TICKS)` (00_scope.md R5). -/
def Params.cntWidth (p : Params) : Nat := Nat.log2 (max p.debounceTicks p.settleTicks) + 1

/-- The default `KEYMAP` (30_encoding.md R67).
PRESUMED: the spec itself marks it as general knowledge (unsafe for a claim that names a symbol; log 16). -/
def defaultKeymap : Vector (Vector Byte 4) 4 :=
  #v[#v[0x31, 0x32, 0x33, 0x41], #v[0x34, 0x35, 0x36, 0x42],
     #v[0x37, 0x38, 0x39, 0x43], #v[0x2A, 0x30, 0x23, 0x44]]

/-- The parameters of the machine after reset: the decided defaults of 00_scope.md R5.
DESIGN CHOICE: `CLK_HZ` is OPEN there; 1 MHz stands here (log 2). Statements quantify over every `Params`. -/
def Params.default : Params :=
  { clkHz := 1000000, settleTicks := 1, debounceTicks := defaultDebounce 1000000,
    order := .grb, keymap := defaultKeymap }

/-- What the spec asks of the parameters: `SETTLE_TICKS` and `DEBOUNCE_TICKS` at least 1 (00_scope.md R5), no `KEYMAP` entry
0x00 (30_encoding.md R67).
DESIGN CHOICE: `CLK_HZ` at least 1; R5 states no bound (log 2). -/
def Params.wf (p : Params) : Bool :=
  decide (1 ≤ p.clkHz) && decide (1 ≤ p.settleTicks) && decide (1 ≤ p.debounceTicks) &&
    p.keymap.toList.all fun row => row.toList.all fun sym => sym != 0x00

/-- The input ports of one tick (10_state.md R11, R34). An intensity port carries the rational its code denotes. -/
structure Pins where
  rst : Bool
  cmdValid : Bool
  cmdOp : BitVec 2
  opMask : Mask
  opColor : Color
  rowIn : BitVec 4
  ledReady : Bool
deriving DecidableEq, Repr, Inhabited

/-- No command, no key, peripheral not ready, no reset. -/
def Pins.quiet : Pins :=
  { rst := false, cmdValid := false, cmdOp := 0, opMask := Mask.zeros, opColor := Color.black,
    rowIn := 0, ledReady := false }

/-- The inputs of a tick that no list of inputs fixes: any (10_state.md R34). DESIGN CHOICE, safe (log 1). -/
opaque Config.freePins : Nat → Pins

/-- The supply `oor` of free bytes (10_state.md R34, 40_color_encoder.md R92). Free, safe (log 3). -/
opaque Config.freeByte : Nat → Byte

/-- The contents of `M` and `C` after a tick with `rst = 1`: unspecified (10_state.md R33). Free, safe (log 4). -/
opaque Config.freeIntensity : Nat → Intensity

/-- How many ticks the melody of the excluded Tone Sequencer keeps the host busy. Free, safe (log 13). -/
opaque Config.freeMelody : Nat → Nat

end Sys2Proof
end

