-- ==== Sys2Proof/Machine/State.lean ====
section
/-! DEFINITION. The machine's state as plain data, the reasons a step can stop, and the state after reset. -/

namespace Sys2Proof.Machine

/-- The sequencer's phases (10_state.md R12): the counterpart of a program counter. -/
inductive Phase where
  | idle | kDrive | kSample | kWait | kResample | kRelease | lLoad | lPush
deriving DecidableEq, Repr

/-- The states of the host's Dispatch Loop (43_host_sequences.md R153). -/
inductive HostMode where
  | idle | keyDetected | awaitRelease
deriving DecidableEq, Repr

/-- What a completed operation delivers (10_state.md R35): a SCAN its result, a RENDER nothing. -/
inductive Result where
  | key (valid : Bool) (row col : Index4)
  | frame
deriving DecidableEq, Repr

/-- The events a run is observed by (10_state.md R35). -/
inductive Event where
  /-- a command and its operands accepted; FILL and OFF are accepted as RENDERs (30_encoding.md R73) -/
  | accept (op : Instr)
  | cols (v : BitVec 4)
  /-- `second` tells the two reads of a row apart (k = 1, k = 2) -/
  | read (col row : Index4) (second : Bool) (bit : Bool)
  | emit (i : PixelIndex) (w : Word)
  | done (result : Result)
deriving DecidableEq, Repr

/-- What the host still has to do: an operation of its program, or the rest of a host sequence it is in
(43_host_sequences.md R153, R154). -/
inductive HostOp where
  /-- issue an operation -/
  | issue (i : Instr)
  /-- `k <- KEY`; SCAN again unless `k == None` (R154) -/
  | untilNone
  /-- `k <- KEY`; the body of DISPATCH after its SCAN (R153) -/
  | branchOnKey (table : ActionTable) (unmapped : UnmappedAction)
  /-- `state <- m` (R153) -/
  | enter (m : HostMode)
  /-- the melody of the excluded Tone Sequencer plays (R152) -/
  | melody
deriving DecidableEq, Repr

/-- Faults: the block raises none, and its step has no fault outcome (60_exceptions.md R170).
So the type has no constructor, and no claim can lean on a fault (safe). -/
inductive Fault where
deriving DecidableEq, Repr

/-- Refusals, each with who raises it. -/
inductive Refusal where
  /-- raised by no arm: every instruction has its meaning (safe) -/
  | notModelled (mnemonic : String)
  /-- raised by PLAY for an animation with `fps = 0`, which the spec says a model refuses
  (43_host_sequences.md R151, 93_implementation_defined.md U7); safe -/
  | animationRateZero
  /-- raised by COLDRIVE for one of the eleven vectors the spec says are never produced (30_encoding.md R64); safe -/
  | columnVectorNeverDriven
  /-- raised by KEYRESULT for a code the spec says is never produced (30_encoding.md R72); safe -/
  | keyCodeNeverProduced
deriving DecidableEq, Repr

/-- The state. Registers of the block first (10_state.md R12 to R25), then its build constants, the host agent, and the
model's own fields. -/
structure State where
  /-- R12 -/
  phase : Phase
  /-- the column being driven, R13 -/
  c : Index4
  /-- the row being read, R14 -/
  r : Index4
  /-- the down counter, R15 -/
  cnt : Nat
  /-- the pixel being emitted, R16 -/
  i : PixelIndex
  /-- the column outputs, R17 -/
  col : BitVec 4
  /-- `KEY.key_valid`, R18 -/
  keyValid : Bool
  /-- `KEY.key_row`, R18 -/
  keyRow : Index4
  /-- `KEY.key_col`, R18 -/
  keyCol : Index4
  /-- R20 -/
  done : Bool
  /-- R24 -/
  ledWord : Word
  /-- R25 -/
  ledValid : Bool
  /-- the operand file `M[0..24]`, R22 -/
  mask : Mask
  /-- the operand registers `C`, R23 -/
  color : Color
  /-- the build constants, R27; never written -/
  params : Params
  /-- the host's `state`, 43_host_sequences.md R153 -/
  hostMode : HostMode
  /-- the host's variable `k`, 43_host_sequences.md R153, R154 -/
  hostKey : Option Byte
  /-- the operations the host still has to do, first one first (log 7) -/
  program : List HostOp
  /-- the ticks left of a host pause, 43_host_sequences.md R159 -/
  sleep : Nat
  /-- the model's own: the inputs of the coming ticks, first one first (log 1) -/
  inputs : List Pins
  /-- the model's own: how many ticks have passed; indexes the free inputs (log 1) -/
  tick : Nat
  /-- the model's own: how many free values have been drawn (logs 3, 4, 13) -/
  draws : Nat
  /-- the model's own: the history of events, oldest first (R35, 20_memory.md R47; log 15) -/
  events : List Event
deriving DecidableEq, Repr

/-- The state right after reset (10_state.md R33, 70_reset_and_hazards.md R190).
`M` and `C` are unspecified there: DESIGN CHOICE zero (log 4). -/
def State.reset : State :=
  { phase := .idle, c := 0, r := 0, cnt := 0, i := 0, col := 0b0000,
    keyValid := false, keyRow := 0, keyCol := 0, done := false,
    ledWord := 0x00000000, ledValid := false,
    mask := Mask.zeros, color := Color.black,
    params := Params.default,
    hostMode := .idle, hostKey := none, program := [], sleep := 0,
    inputs := [], tick := 0, draws := 0, events := [] }

end Sys2Proof.Machine
end

