-- ==== Sys2Proof/Machine/Flags.lean ====
section
/-! DEFINITION. The status signals and combinational outputs. The block has no condition codes and no arithmetic flags
(10_state.md R26); these are all its one-bit status values and the key symbol. -/

namespace Sys2Proof.Machine

/-- `cmd_ready = (phase == IDLE)` (10_state.md R21). -/
def State.cmdReady (s : State) : Bool := s.phase == .idle

/-- `busy = (phase != IDLE)` (10_state.md R21). -/
def State.busy (s : State) : Bool := s.phase != .idle

/-- `KEYMAP[key_row][key_col]` when a key is valid, else 0x00 (10_state.md R19, 30_encoding.md R68). -/
def State.keySym (s : State) : Byte :=
  if s.keyValid then s.params.keymap[s.keyRow][s.keyCol] else 0x00

/-- What the host reads after `done`: the symbol, or `None` (30_encoding.md R68, 43_host_sequences.md R154). -/
def State.hostReadKey (s : State) : Option Byte :=
  if s.keyValid then some s.keySym else none

/-- The input ports of this tick: the head of the list, else free (10_state.md R34; log 1). -/
def State.pins (s : State) : Pins :=
  match s.inputs with
  | p :: _ => p
  | [] => Config.freePins s.tick

/-- The input ports of the tick `k` ticks from now. -/
def State.pinsAt (s : State) (k : Nat) : Pins :=
  match s.inputs.drop k with
  | p :: _ => p
  | [] => Config.freePins (s.tick + k)

/-- `ReadRow(r)`: the one bit `row_in[r]` (00_scope.md section 5.2, 10_state.md R32). -/
def readRow (rowIn : BitVec 4) (r : Index4) : Bool := rowIn.getLsbD r.val

/-- The row bit the sequencer reads on this tick. -/
def State.rowBit (s : State) : Bool := readRow s.pins.rowIn s.r

/-- A transfer: `led_valid = 1` and `led_ready = 1` on one tick (00_scope.md section 6, 60_exceptions.md R174 e). -/
def State.transfer (s : State) : Bool := s.ledValid && s.pins.ledReady

end Sys2Proof.Machine
end

