-- ==== Sys2Proof/Machine/Operands.lean ====
section
/-! DEFINITION. Operand arithmetic: truncation, channel bytes, word packing, one-hot columns, KEY packing, and the
conversion of milliseconds to ticks. Nothing here reads the machine's state. -/

namespace Sys2Proof.Machine

/-- `trunc(q)`: rounding toward zero (00_scope.md section 5.1). -/
def trunc (q : Intensity) : Int := if 0 ≤ q then q.floor else q.ceil

/-- An intensity is in range when `0 <= v <= 1` (00_scope.md section 5.1). -/
def inRange (v : Intensity) : Bool := decide (0 ≤ v) && decide (v ≤ 1)

/-- `trunc(v * 255)` as a byte (40_color_encoder.md R91). -/
def truncByte (v : Intensity) : Byte := BitVec.ofInt 8 (trunc (v * 255))

/-- `ChannelByte(v)` with the supply of draws at `n`: the byte, and the supply after it (40_color_encoder.md R91, R92).
An out-of-range value gives a fresh free byte (log 3). -/
def channelByte (n : Nat) (v : Intensity) : Byte × Nat :=
  if inRange v then (truncByte v, n) else (Config.freeByte n, n + 1)

/-- The channel byte of one pixel, drawn when a FACTOR is out of range (41_frame_renderer.md R101; 90_conflicts.md C11). -/
def pixelByte (n : Nat) (m channel : Intensity) : Byte × Nat :=
  if inRange m && inRange channel then (truncByte (m * channel), n) else (Config.freeByte n, n + 1)

/-- The three colour bytes in the order of `CHANNEL_ORDER`, most significant first (30_encoding.md R63, 40_color_encoder.md R90). -/
def orderBytes (o : ChannelOrder) (r g b : Byte) : Byte × Byte × Byte :=
  match o with
  | .rgb => (r, g, b)
  | .rbg => (r, b, g)
  | .grb => (g, r, b)
  | .gbr => (g, b, r)
  | .brg => (b, r, g)
  | .bgr => (b, g, r)

/-- The LED word of three colour bytes (30_encoding.md R61). -/
def packWord (o : ChannelOrder) (r g b : Byte) : Word :=
  let t := orderBytes o r g b
  t.1 ++ t.2.1 ++ t.2.2 ++ lowByte

/-- `ENCODE(red, green, blue)`, its draws in the order of the pseudocode: green, red, blue (40_color_encoder.md R90). -/
def encodeWord (o : ChannelOrder) (n : Nat) (red green blue : Intensity) : Word × Nat :=
  let g := channelByte n green
  let r := channelByte g.2 red
  let b := channelByte r.2 blue
  (packWord o r.1 g.1 b.1, b.2)

/-- `EncodePixel(m, C, oor)` (41_frame_renderer.md R101). -/
def encodePixel (o : ChannelOrder) (n : Nat) (m : Intensity) (c : Color) : Word × Nat :=
  let g := pixelByte n m c.green
  let r := pixelByte g.2 m c.red
  let b := pixelByte r.2 m c.blue
  (packWord o r.1 g.1 b.1, b.2)

/-- A pixel whose factors are all in range (41_frame_renderer.md R101). -/
def pixelInRange (m : Intensity) (c : Color) : Bool :=
  inRange m && inRange c.red && inRange c.green && inRange c.blue

/-- `onehot(c)` (00_scope.md section 5.1). -/
def onehot (c : Index4) : BitVec 4 := 1#4 <<< c.val

/-- The five column vectors that are ever driven (30_encoding.md R64). -/
def legalCols (v : BitVec 4) : Bool :=
  v == 0b0000#4 || v == 0b0001#4 || v == 0b0010#4 || v == 0b0100#4 || v == 0b1000#4

/-- The KEY codes that are ever produced: `{1, r, c}` and `{0, 0, 0}` (30_encoding.md R66, R72). -/
def legalKey (valid : Bool) (row col : Index4) : Bool :=
  valid || (row == 0 && col == 0)

/-- The column a one-hot vector drives (30_encoding.md R64). -/
def columnOf (v : BitVec 4) : Index4 :=
  if v == 0b0010#4 then 1 else if v == 0b0100#4 then 2 else if v == 0b1000#4 then 3 else 0

/-- `KEY = {key_valid, key_row[1:0], key_col[1:0]}` (30_encoding.md R66). -/
def packKey (valid : Bool) (row col : Index4) : BitVec 5 :=
  BitVec.ofBool valid ++ BitVec.ofFin (w := 2) row ++ BitVec.ofFin (w := 2) col

/-- The intensity `k / 255` that the 8-bit code `k` denotes in the format N255 (30_encoding.md R70). -/
def n255 (k : Byte) : Intensity := mkRat (k.toNat : Int) 255

/-- The ticks that last at least `ms` milliseconds. DESIGN CHOICE, unsafe for claims on time (log 14). -/
def msTicks (p : Params) (ms : Nat) : Nat := (ms * p.clkHz + 999) / 1000

/-- `1000 div fps` (43_host_sequences.md R151). -/
def framePause (fps : Nat) : Nat := 1000 / fps

/-- A digit symbol, ASCII '0' to '9' (30_encoding.md R67). -/
def isDigit (sym : Byte) : Bool := decide (0x30#8 ≤ sym) && decide (sym ≤ 0x39#8)

/-- The entries of `ACTION_TABLE` that the source fixes (43_host_sequences.md R157): key '1' plays Animation 1 in red at
10 fps, key 'B' fills with (0, 0, 1), key '#' with (0.2, 0.2, 0.2). The masks of Animation 1 and the triple for red are
in no source (91_not_in_source.md N4) and stand as arguments.
PRESUMED: the symbols' ASCII codes (30_encoding.md R67; log 26). -/
def fixedEntries (cross : Vector Mask 5) (red : Color) : ActionTable :=
  [(0x31#8, .play ⟨cross, red, 10⟩), (0x42#8, .fill ⟨0, 0, 1⟩), (0x23#8, .fill ⟨mkRat 1 5, mkRat 1 5, mkRat 1 5⟩)]

/-- The action plays an animation at `fps` frames per second (43_host_sequences.md R157). -/
def playsAt (fps : Nat) : Action → Bool
  | .play a => a.fps == fps
  | .fill _ => false
  | .off => false
  | .melody => false
  | .nothing => false

/-- A table has the three entries that the source fixes (00_scope.md R5, 43_host_sequences.md R157); the rest of it is a
parameter. -/
def holdsFixedEntries (table : ActionTable) : Bool :=
  (table.lookup 0x31#8).any (playsAt 10) &&
  table.lookup 0x42#8 == some (.fill ⟨0, 0, 1⟩) &&
  table.lookup 0x23#8 == some (.fill ⟨mkRat 1 5, mkRat 1 5, mkRat 1 5⟩)

/-- `Act`: the action the table gives for a symbol, or that of `UNMAPPED_ACTION` (43_host_sequences.md R156, R158). -/
def actionFor (table : ActionTable) (unmapped : UnmappedAction) (sym : Byte) : Action :=
  match table.lookup sym with
  | some a => a
  | none =>
    match unmapped with
    | .noOp => .nothing
    | .offForDigits => if isDigit sym then .off else .nothing

end Sys2Proof.Machine
end

