-- ==== Sys2Proof/Machine/Ops.lean ====
section
/-! DEFINITION. The operations the meanings share: the sequencer's phase transitions (10_state.md R32, R36), the clock
around them, reset, and the two ways an operation is taken up on a tick. The block has no exception to take and none to
return from (60_exceptions.md R170, R175); completion (`deliverKey`, the last transfer) and `resetBlock` stand in
their place. -/

namespace Sys2Proof.Machine

/-- Add one event to the history. -/
def State.log (s : State) (e : Event) : State := { s with events := s.events ++ [e] }

/-- `done` falls (10_state.md R32: `s'.done <- 0` on every tick). -/
def State.clearDone (s : State) : State := { s with done := false }

/-- What the host still has to do becomes `ops`. -/
def State.setProgram (s : State) (ops : List HostOp) : State := { s with program := ops }

/-- The host puts operations in front of what it still has to do. -/
def State.push (s : State) (ops : List HostOp) : State := s.setProgram (ops ++ s.program)

/-- The host pauses for `n` ticks (43_host_sequences.md R159). -/
def State.setSleep (s : State) (n : Nat) : State := { s with sleep := n }

/-- The host's variable `k` and its `state` (43_host_sequences.md R153). -/
def State.setHost (s : State) (k : Option Byte) (m : HostMode) : State := { s with hostKey := k, hostMode := m }

/-- `ResetState` (10_state.md R33, 70_reset_and_hazards.md R190 to R192). `M` and `C` are unspecified after it: free
intensities (log 4). The host is back in `Idle` with nothing to do (R190; log 8).
DESIGN CHOICE: its variable `k` is none, where R190 gives the host's state only (log 23). -/
def State.resetBlock (s : State) : State :=
  { s with
    phase := .idle, c := 0, r := 0, cnt := 0, i := 0, col := 0b0000,
    keyValid := false, keyRow := 0, keyCol := 0, done := false, ledWord := 0x00000000, ledValid := false,
    mask := Vector.ofFn fun k => Config.freeIntensity (s.draws + k.val),
    color := ⟨Config.freeIntensity (s.draws + 25), Config.freeIntensity (s.draws + 26),
      Config.freeIntensity (s.draws + 27)⟩,
    draws := s.draws + 28,
    hostMode := .idle, hostKey := none, program := [], sleep := 0 }

/-! ### The sequencer, phase by phase (10_state.md R32) -/

/-- The last tick of a SCAN: columns low, the result written, done (10_state.md R18, 60_exceptions.md R175). -/
def deliverKey (valid : Bool) (row col : Index4) (s : State) : State :=
  { s with col := 0b0000, keyValid := valid, keyRow := row, keyCol := col, done := true, phase := .idle }

/-- `K_DRIVE` driving the vector `v`: `DriveCols(v)`, and the settle count (10_state.md R32). -/
def driveTick (v : BitVec 4) (s : State) : State :=
  if s.cnt > 1 then { s with col := v, r := 0, cnt := s.cnt - 1 }
  else { s with col := v, r := 0, cnt := 0, phase := .kSample }

/-- `K_SAMPLE` reading the bit `b` (10_state.md R32). -/
def sampleTick (b : Bool) (s : State) : State :=
  let t := s.log (.read s.c s.r false b)
  if b then { t with cnt := s.params.debounceTicks, phase := .kWait }
  else if s.r.val < 3 then { t with r := s.r + 1 }
  else { t with phase := .kRelease }

/-- `K_WAIT`: the debounce count (10_state.md R32). -/
def waitTick (s : State) : State :=
  if s.cnt > 1 then { s with cnt := s.cnt - 1 } else { s with cnt := 0, phase := .kResample }

/-- `K_RESAMPLE` reading the bit `b` (10_state.md R32; 42_keypad_scanner.md R124, R125). -/
def resampleTick (b : Bool) (s : State) : State :=
  let t := s.log (.read s.c s.r true b)
  if b then deliverKey true s.r s.c t
  else if s.r.val < 3 then { t with r := s.r + 1, phase := .kSample }
  else { t with phase := .kRelease }

/-- `K_RELEASE`: `DriveCols(0b0000)`, then the next column or the end of the sweep (10_state.md R32). -/
def releaseTick (s : State) : State :=
  if s.c.val < 3 then
    { s with col := 0b0000, c := s.c + 1, cnt := s.params.settleTicks, phase := .kDrive }
  else deliverKey false 0 0 s

/-- `L_LOAD` with the word `w` and the draws used so far: the word is offered (10_state.md R24, R25, R32). -/
def offerWord (w : Word × Nat) (s : State) : State :=
  { s with ledWord := w.1, ledValid := true, draws := w.2, phase := .lPush }

/-- `L_LOAD`: the word of pixel `i` (10_state.md R32, 41_frame_renderer.md R101). -/
def loadTick (s : State) : State :=
  offerWord (encodePixel s.params.order s.draws s.mask[s.i] s.color) s

/-- `L_PUSH`: wait for the peripheral, without limit (10_state.md R32, 41_frame_renderer.md R103). -/
def pushTick (ready : Bool) (s : State) : State :=
  if ready then
    if s.i.val < 24 then { s with ledValid := false, i := s.i + 1, phase := .lLoad }
    else { s with ledValid := false, done := true, phase := .idle }
  else s

/-- What the sequencer does on a tick on which no command is taken up (10_state.md R32, R36). -/
def advance (s : State) : State :=
  match s.phase with
  | .idle => s
  | .kDrive => driveTick (onehot s.c) s
  | .kSample => sampleTick s.rowBit s
  | .kWait => waitTick s
  | .kResample => resampleTick s.rowBit s
  | .kRelease => releaseTick s
  | .lLoad => loadTick s
  | .lPush => pushTick s.pins.ledReady s

/-! ### The clock -/

/-- The result of the operation that ends on a tick that leaves phase `before` (10_state.md R35). -/
def resultOf (before : Phase) (t : State) : Result :=
  match before with
  | .lPush => .frame
  | _ => .key t.keyValid t.keyRow t.keyCol

/-- The events the wires show on a tick from `s` to `t`: a change of the columns, a transfer, a completion, in that
order (10_state.md R35; log 15). A transfer shows on a reset tick too (70_reset_and_hazards.md R192). -/
def wireEvents (s t : State) : List Event :=
  (if t.col = s.col then [] else [.cols t.col]) ++
  (if s.transfer then [.emit s.i s.ledWord] else []) ++
  (if t.done then [.done (resultOf s.phase t)] else [])

/-- The bookkeeping of one tick from `s`, whose registers end as those of `t`: the next inputs, the tick count, a pause
counted down, the wires' events. -/
def endTick (s t : State) : State :=
  { t with
    inputs := s.inputs.tail, tick := s.tick + 1, sleep := t.sleep - 1,
    events := t.events ++ wireEvents s t }

/-- One tick in which the sequencer does `f`: `rst` overrides it, and `done` falls unless `f` sets it (10_state.md R32). -/
def clock (f : State → State) (s : State) : State :=
  endTick s (if s.pins.rst then s.resetBlock else f s.clearDone)

/-- One tick on which no operation is taken up. -/
def tickAlone (s : State) : State := clock advance s

/-- A tick on which the command `i` is offered: accepted in IDLE with the effect `acc`, otherwise the tick passes without
it (10_state.md R32, 60_exceptions.md R174 d). -/
def offer (i : Instr) (acc : State → State) (s : State) : Host.Outcome State Fault Refusal :=
  .next (clock (fun t => if t.phase = .idle then (acc t).log (.accept i) else advance t) s)

/-- A tick with the access `f`, which the sequencer makes at `here`; elsewhere the tick passes without it (log 9). -/
def access (here : Bool) (f : State → State) (s : State) : Host.Outcome State Fault Refusal :=
  .next (clock (if here then f else advance) s)

/-- What the acceptance of a RENDER writes (10_state.md R22, R23, R32). -/
def acceptRender (mask : Mask) (color : Color) (s : State) : State :=
  { s with mask := mask, color := color, i := 0, phase := .lLoad }

/-- What the acceptance of a SCAN writes (10_state.md R32). -/
def acceptScan (s : State) : State :=
  { s with c := 0, r := 0, cnt := s.params.settleTicks, phase := .kDrive }

end Sys2Proof.Machine
end

