-- ==== Sys2Proof/Machine/HostSeq.lean ====
section
/-! DEFINITION. The host sequences PLAY, AWAIT_RELEASE, DISPATCH, PAUSE (43_host_sequences.md). The host is a sequential
agent with a list of operations still to do; a sequence puts its operations in front of that list and takes no time
(log 6). -/

namespace Sys2Proof.Machine

/-- One frame of PLAY: a RENDER and its pause (43_host_sequences.md R150, R151). -/
def playFrame (a : Animation) (mask : Mask) : List HostOp :=
  [.issue (.render mask a.color), .issue (.pause (framePause a.fps))]

/-- The operations of PLAY (43_host_sequences.md R150). -/
def playOps (a : Animation) : List HostOp := a.masks.toList.flatMap (playFrame a)

/-- PLAY: five frames in order, each with its pause; `fps = 0` is refused (43_host_sequences.md R150, R151; log 12). -/
def execPlay (a : Animation) (s : State) : Host.Outcome State Fault Refusal :=
  if a.fps = 0 then .refused .animationRateZero else .next (s.push (playOps a))

/-- One round of AWAIT_RELEASE: a SCAN, then the test of its result (43_host_sequences.md R154). -/
def awaitOps : List HostOp := [.issue .scan, .untilNone]

/-- AWAIT_RELEASE (43_host_sequences.md R154). -/
def execAwaitRelease (s : State) : Host.Outcome State Fault Refusal := .next (s.push awaitOps)

/-- DISPATCH: the host is in `Idle` and polls (43_host_sequences.md R153). -/
def execDispatch (table : ActionTable) (unmapped : UnmappedAction) (s : State) :
    Host.Outcome State Fault Refusal :=
  .next ((s.setHost s.hostKey .idle).push [.issue .scan, .branchOnKey table unmapped])

/-- PAUSE: the host issues no command for `ms` milliseconds (43_host_sequences.md R159; log 14). -/
def execPause (ms : Nat) (s : State) : Host.Outcome State Fault Refusal :=
  .next (s.setSleep (msTicks s.params ms))

/-- The operations of one action (43_host_sequences.md R156). -/
def actionOps : Action → List HostOp
  | .play a => [.issue (.play a)]
  | .fill color => [.issue (.fill color)]
  | .off => [.issue .off]
  | .melody => [.melody]
  | .nothing => []

/-- The end of one round of DISPATCH: `PAUSE 50`, and again (43_host_sequences.md R153, R155). -/
def nextRound (table : ActionTable) (unmapped : UnmappedAction) : List HostOp :=
  [.issue (.pause 50), .issue (.dispatch table unmapped)]

/-- The wait for release inside DISPATCH (43_host_sequences.md R153). -/
def releaseOps : List HostOp := [.enter .awaitRelease, .issue .awaitRelease, .enter .idle]

/-- DISPATCH after its SCAN (43_host_sequences.md R153).
DESIGN CHOICE: a key still held when PLAY or the melody ends is met by the SCANs of AWAIT_RELEASE, before the next `Idle`
SCAN: R153 and R154 put them there, and 70_reset_and_hazards.md R212 speaks of the `Idle` SCAN (log 27). -/
def branchOnKey (table : ActionTable) (unmapped : UnmappedAction) (s : State) : State :=
  match s.hostReadKey with
  | none => (s.setHost none s.hostMode).push (nextRound table unmapped)
  | some sym =>
    (s.setHost (some sym) .keyDetected).push
      (actionOps (actionFor table unmapped sym) ++ releaseOps ++ nextRound table unmapped)

/-- AWAIT_RELEASE after a SCAN: again unless it returned `None` (43_host_sequences.md R154). -/
def untilNone (s : State) : State :=
  let t := s.setHost s.hostReadKey s.hostMode
  if s.hostReadKey.isSome then t.push awaitOps else t

/-- The melody: the host issues nothing while it plays, for a length the spec does not give (43_host_sequences.md R152,
70_reset_and_hazards.md R212; log 13). -/
def playMelody (s : State) : State :=
  { s with sleep := Config.freeMelody s.draws, draws := s.draws + 1 }

end Sys2Proof.Machine
end

