-- ==== Sys2Proof/Machine/Renderer.lean ====
section
/-! DEFINITION. The frame serializer's operations: RENDER, its pseudo-operations FILL and OFF, and ENCODE
(41_frame_renderer.md, 40_color_encoder.md). -/

namespace Sys2Proof.Machine

/-- RENDER: its acceptance captures the operands and starts the frame (41_frame_renderer.md R100, R104). -/
def execRender (mask : Mask) (color : Color) (s : State) : Host.Outcome State Fault Refusal :=
  offer (.render mask color) (acceptRender mask color) s

/-- FILL: `RENDER ONES, color` (41_frame_renderer.md R106). -/
def execFill (color : Color) (s : State) : Host.Outcome State Fault Refusal :=
  offer (.render Mask.ones color) (acceptRender Mask.ones color) s

/-- OFF: `RENDER ZEROS, (0, 0, 0)` (41_frame_renderer.md R107). -/
def execOff (s : State) : Host.Outcome State Fault Refusal :=
  offer (.render Mask.zeros Color.black) (acceptRender Mask.zeros Color.black) s

/-- ENCODE: the word of three intensities, made in `L_LOAD` and put on offer there (40_color_encoder.md R90; log 9). -/
def execEncode (red green blue : Intensity) (s : State) : Host.Outcome State Fault Refusal :=
  access (s.phase == .lLoad) (fun t => offerWord (encodeWord t.params.order t.draws red green blue) t) s

end Sys2Proof.Machine
end

