-- ==== Sys2Proof/Machine/Scanner.lean ====
section
/-! DEFINITION. The keypad scanner's operations: NOP, the reserved code, SCAN, and the words that cross the keypad and
result interfaces (42_keypad_scanner.md; 30_encoding.md R64 to R66, R71). -/

namespace Sys2Proof.Machine

/-- NOP: accepted in IDLE, changes no register (42_keypad_scanner.md R135). -/
def execNop (s : State) : Host.Outcome State Fault Refusal := offer .nop (fun t => t) s

/-- The reserved code: accepted in IDLE and does nothing (30_encoding.md R71; log 11). -/
def execReserved (s : State) : Host.Outcome State Fault Refusal := offer .reserved (fun t => t) s

/-- SCAN: its acceptance starts the sweep (42_keypad_scanner.md R120, 10_state.md R32). -/
def execScan (s : State) : Host.Outcome State Fault Refusal := offer .scan acceptScan s

/-- COLDRIVE: `DriveCols(v)`, one-hot in `K_DRIVE`, zero in `K_RELEASE` (30_encoding.md R64, 42_keypad_scanner.md R121). -/
def execColdrive (v : BitVec 4) (s : State) : Host.Outcome State Fault Refusal :=
  if legalCols v then
    if v = 0b0000#4 then access (s.phase == .kRelease) releaseTick s
    else access (s.phase == .kDrive) (driveTick v) s
  else .refused .columnVectorNeverDriven

/-- ROWREAD: `ReadRow` returns the bit `active`, as first or as second read of the row (30_encoding.md R65,
42_keypad_scanner.md R122, R123). -/
def execRowread (active : Bool) (s : State) : Host.Outcome State Fault Refusal :=
  if s.phase = .kResample then access true (resampleTick active) s
  else access (s.phase == .kSample) (sampleTick active) s

/-- KEYRESULT: the result a SCAN delivers on its last tick, a key on its second read, `None` at the end of the sweep
(30_encoding.md R66, 42_keypad_scanner.md R124, R126, R132). -/
def execKeyresult (valid : Bool) (row col : Index4) (s : State) : Host.Outcome State Fault Refusal :=
  if legalKey valid row col then
    if valid then
      access (s.phase == .kResample) (fun t => deliverKey true row col (t.log (.read t.c t.r true true))) s
    else access (s.phase == .kRelease && s.c == 3) (deliverKey false row col) s
  else .refused .keyCodeNeverProduced

end Sys2Proof.Machine
end

