-- ==== Sys2Proof/Machine/Dispatch.lean ====
section
/-! DEFINITION. One arm per operation. -/

namespace Sys2Proof.Machine

def exec (i : Instr) (s : State) : Host.Outcome State Fault Refusal :=
  match i with
  | .nop => Sys2Proof.Machine.execNop s
  | .scan => Sys2Proof.Machine.execScan s
  | .render mask color => Sys2Proof.Machine.execRender mask color s
  | .reserved => Sys2Proof.Machine.execReserved s
  | .fill color => Sys2Proof.Machine.execFill color s
  | .off => Sys2Proof.Machine.execOff s
  | .encode red green blue => Sys2Proof.Machine.execEncode red green blue s
  | .coldrive v => Sys2Proof.Machine.execColdrive v s
  | .rowread active => Sys2Proof.Machine.execRowread active s
  | .keyresult valid row col => Sys2Proof.Machine.execKeyresult valid row col s
  | .play anim => Sys2Proof.Machine.execPlay anim s
  | .awaitRelease => Sys2Proof.Machine.execAwaitRelease s
  | .dispatch table unmapped => Sys2Proof.Machine.execDispatch table unmapped s
  | .pause ms => Sys2Proof.Machine.execPause ms s

end Sys2Proof.Machine
end

