-- ==== Sys2Proof/Decode.lean ====
section
/-! DEFINITION. The words that cross the block's interfaces (30_encoding.md R60), the decoder from them to operations,
total and refusing by name, and the encoder back. -/

namespace Sys2Proof

open Sys2Proof.Machine

/-- A coded operation: a command with the operand ports beside it (formats CMD and OPR), or a word of the
formats W, COL, ROW, KEY (30_encoding.md R60). -/
inductive Code where
  | cmd (op : BitVec 2) (mask : Mask) (color : Color)
  | led (w : Word)
  | col (v : BitVec 4)
  | row (a : BitVec 1)
  | key (k : BitVec 5)
deriving DecidableEq, Repr

/-- Why bits are no code of the block. -/
inductive Reject where
  /-- an LED word whose low byte is not `LOW_BYTE`: never produced (30_encoding.md R72) -/
  | ledLowByteNotZero
  /-- one of the eleven column vectors that are never produced (30_encoding.md R64) -/
  | columnVectorNeverDriven
  /-- a KEY code `{0, r, c}` with `(r, c)` not `(0, 0)`: never produced (30_encoding.md R72) -/
  | keyCodeNeverProduced
  /-- no format of the block has this width (30_encoding.md R60); the host sequences have no encoding (R74) -/
  | noFormatOfThisWidth
  /-- the number does not fit the width of its format -/
  | bitsBeyondTheFormat
deriving DecidableEq, Repr

/-- The opcode map (30_encoding.md R69, R71). -/
def decodeCmd (op : BitVec 2) (mask : Mask) (color : Color) : Instr :=
  if op == 0b00#2 then .nop
  else if op == 0b01#2 then .scan
  else if op == 0b10#2 then .render mask color
  else .reserved

/-- The three bytes of an LED word back as (red, green, blue), under a channel order (30_encoding.md R63). -/
def unpackWord (o : ChannelOrder) (w : Word) : Byte × Byte × Byte :=
  let x := w.extractLsb' 24 8
  let y := w.extractLsb' 16 8
  let z := w.extractLsb' 8 8
  match o with
  | .rgb => (x, y, z)
  | .rbg => (x, z, y)
  | .grb => (y, x, z)
  | .gbr => (z, x, y)
  | .brg => (y, z, x)
  | .bgr => (z, y, x)

/-- The decoder. An LED word is read as the ENCODE of the three intensities its bytes denote in N255.
DESIGN CHOICE, safe (log 17): many intensities truncate to one byte; the one named is the byte's own N255 value. -/
def decode (o : ChannelOrder) : Code → Except Reject Instr
  | .cmd op mask color => .ok (decodeCmd op mask color)
  | .led w =>
    if w.extractLsb' 0 8 == lowByte then
      let t := unpackWord o w
      .ok (.encode (n255 t.1) (n255 t.2.1) (n255 t.2.2))
    else .error .ledLowByteNotZero
  | .col v => if legalCols v then .ok (.coldrive v) else .error .columnVectorNeverDriven
  | .row a => .ok (.rowread (a == 1#1))
  | .key k =>
    let valid := k.getLsbD 4
    let row : Index4 := (k.extractLsb' 2 2).toFin
    let col : Index4 := (k.extractLsb' 0 2).toFin
    if legalKey valid row col then .ok (.keyresult valid row col) else .error .keyCodeNeverProduced

/-- The code of a number of `nbits` bits, bit 0 least significant: the width names the format. A whole byte is read
as a command code on `cmd_op` (log 18). A command's operand ports are then zeros. -/
def codeOfBits (nbits w : Nat) : Except Reject Code :=
  if nbits = 1 then if w < 2 then .ok (.row (BitVec.ofNat 1 w)) else .error .bitsBeyondTheFormat
  else if nbits = 2 ∨ nbits = 8 then
    if w < 4 then .ok (.cmd (BitVec.ofNat 2 w) Mask.zeros Color.black) else .error .bitsBeyondTheFormat
  else if nbits = 4 then if w < 16 then .ok (.col (BitVec.ofNat 4 w)) else .error .bitsBeyondTheFormat
  else if nbits = 5 then if w < 32 then .ok (.key (BitVec.ofNat 5 w)) else .error .bitsBeyondTheFormat
  else if nbits = 32 then
    if w < 4294967296 then .ok (.led (BitVec.ofNat 32 w)) else .error .bitsBeyondTheFormat
  else .error .noFormatOfThisWidth

/-- Bits to operation, under the default `CHANNEL_ORDER = GRB` (30_encoding.md R63). -/
def decodeBits (nbits w : Nat) : Except Reject Instr :=
  match codeOfBits nbits w with
  | .ok c => decode .grb c
  | .error e => .error e

/-- The operation the decoder reads from bits numbered as spec/opcode_table.json numbers them. -/
def decodeTableWord (nbits w : Nat) : Option Instr :=
  match decodeBits nbits w with
  | .ok i => some i
  | .error _ => none

/-- The encoder: the code the operation puts on its interface. FILL and OFF are seen by the block as RENDER
(30_encoding.md R73); the host sequences have none (R74); the word of an out-of-range ENCODE is not fixed (R92). -/
def encode (o : ChannelOrder) : Instr → Option Code
  | .nop => some (.cmd 0b00 Mask.zeros Color.black)
  | .scan => some (.cmd 0b01 Mask.zeros Color.black)
  | .render mask color => some (.cmd 0b10 mask color)
  | .reserved => some (.cmd 0b11 Mask.zeros Color.black)
  | .fill color => some (.cmd 0b10 Mask.ones color)
  | .off => some (.cmd 0b10 Mask.zeros Color.black)
  | .encode red green blue =>
    if inRange red && inRange green && inRange blue then
      some (.led (packWord o (truncByte red) (truncByte green) (truncByte blue)))
    else none
  | .coldrive v => some (.col v)
  | .rowread a => some (.row (BitVec.ofBool a))
  | .keyresult valid row col => some (.key (packKey valid row col))
  | .play _ => none
  | .awaitRelease => none
  | .dispatch _ _ => none
  | .pause _ => none

/-- What the block sees of an operation: FILL and OFF are RENDERs (30_encoding.md R73), an ENCODE is known by the bytes
of its word, everything else is itself. -/
def Instr.asSeen : Instr → Instr
  | .nop => .nop
  | .scan => .scan
  | .render mask color => .render mask color
  | .reserved => .reserved
  | .fill color => .render Mask.ones color
  | .off => .render Mask.zeros Color.black
  | .encode red green blue => .encode (n255 (truncByte red)) (n255 (truncByte green)) (n255 (truncByte blue))
  | .coldrive v => .coldrive v
  | .rowread a => .rowread a
  | .keyresult valid row col => .keyresult valid row col
  | .play a => .play a
  | .awaitRelease => .awaitRelease
  | .dispatch table unmapped => .dispatch table unmapped
  | .pause ms => .pause ms

end Sys2Proof
end

