-- ==== Sys2Proof/Machine/Fetch.lean ====
section
/-! DEFINITION. What a step does next. The block fetches no instructions (20_memory.md R51): in IDLE the operation is the
host's, from its program or from the command port; in a busy phase it is the access the phase makes. -/

namespace Sys2Proof.Machine

/-- The next thing to happen, with the state it starts from. -/
inductive Fetched where
  /-- an operation -/
  | run (i : Instr) (s : State)
  /-- a move of the host that takes no time -/
  | host (op : HostOp) (s : State)
  /-- a tick of the block with no operation taken up -/
  | tick
deriving DecidableEq, Repr

/-- The access that the sequencer makes in a busy phase, if it has a name among the operations: `K_WAIT` and `L_PUSH`
make none, and a pixel with a factor out of range is drawn by `L_LOAD` itself (90_conflicts.md C11). -/
def busyAccess (s : State) : Option Instr :=
  match s.phase with
  | .idle => none
  | .kDrive => some (.coldrive (onehot s.c))
  | .kSample => some (.rowread s.rowBit)
  | .kWait => none
  | .kResample => if s.rowBit then some (.keyresult true s.r s.c) else some (.rowread false)
  | .kRelease => if s.c.val < 3 then some (.coldrive 0b0000#4) else some (.keyresult false 0 0)
  | .lLoad =>
    if pixelInRange s.mask[s.i] s.color then
      some (.encode (s.mask[s.i] * s.color.red) (s.mask[s.i] * s.color.green) (s.mask[s.i] * s.color.blue))
    else none
  | .lPush => none

/-- What the host does in IDLE: nothing while it pauses, else the head of its program, else whatever the command port
offers (43_host_sequences.md R159, 60_exceptions.md R176; log 7). -/
def hostFetch (s : State) : Fetched :=
  if s.sleep > 0 then .tick
  else
    match s.program with
    | .issue i :: rest => .run i (s.setProgram rest)
    | op :: rest => .host op (s.setProgram rest)
    | [] => if s.pins.cmdValid then .run (decodeCmd s.pins.cmdOp s.pins.opMask s.pins.opColor) s else .tick

/-- What happens next; `rst` comes before everything (60_exceptions.md R174 b). -/
def fetch (s : State) : Fetched :=
  if s.pins.rst then .tick
  else if s.phase = .idle then hostFetch s
  else
    match busyAccess s with
    | some i => .run i s
    | none => .tick

/-- A host move between operations. -/
def hostMove (op : HostOp) (s : State) : State :=
  match op with
  | .issue i => s.push [.issue i]
  | .untilNone => untilNone s
  | .branchOnKey table unmapped => branchOnKey table unmapped s
  | .enter m => s.setHost s.hostKey m
  | .melody => playMelody s

/-- The input ports with the command `op` offered and its operand ports at zero. -/
def commandPins (op : BitVec 2) : Pins := { Pins.quiet with cmdValid := true, cmdOp := op }

/-- Put an operation where the next step takes it up: a command on the command port in IDLE, an access in the phase that
makes it, with quiet inputs otherwise. A host sequence has no word (30_encoding.md R74). -/
def placeCode (s : State) (c : Code) : State :=
  let t := { s with inputs := [Pins.quiet] }
  match c with
  | .cmd op _ _ => { t with phase := .idle, program := [], sleep := 0, inputs := [commandPins op] }
  | .led w =>
    let u := unpackWord .grb w
    { t with phase := .lLoad, mask := t.mask.set t.i 1, color := ⟨n255 u.1, n255 u.2.1, n255 u.2.2⟩ }
  | .col v => if v = 0b0000#4 then { t with phase := .kRelease, c := 0 } else { t with phase := .kDrive, c := columnOf v }
  | .row a => { t with phase := .kSample, inputs := [{ Pins.quiet with rowIn := if a = 1#1 then onehot s.r else 0 }] }
  | .key k =>
    if k.getLsbD 4 then
      { t with phase := .kResample, r := (k.extractLsb' 2 2).toFin, c := (k.extractLsb' 0 2).toFin,
               inputs := [{ Pins.quiet with rowIn := 0b1111 }] }
    else { t with phase := .kRelease, c := 3 }

/-- The state with the word placed, or unchanged where the number is no code. -/
def placeBits (s : State) (nbits w : Nat) : State :=
  match codeOfBits nbits w with
  | .ok c => placeCode s c
  | .error _ => s

end Sys2Proof.Machine
end

