-- ==== Sys2Proof/Machine/Step.lean ====
section
/-! DEFINITION. One step: a clock tick of the block, or a host move that takes no time (log 6). -/

namespace Sys2Proof.Machine

/-- One step of the machine. -/
def step (s : State) : Host.Outcome State Fault Refusal :=
  match fetch s with
  | .run i t => exec i t
  | .host op t => .next (hostMove op t)
  | .tick => .next (tickAlone s)

/-- `s` with the word stored where `step` takes its next operation from (log 18). -/
def State.withFetchWord (s : State) (nbits w : Nat) : State := placeBits s nbits w

end Sys2Proof.Machine
end

