-- ==== Sys2Proof/Machine/Operation.lean ====
section
/-! DEFINITION. The operation level (00_scope.md R6): SCAN and RENDER as the sequential procedures of
42_keypad_scanner.md R120 and 41_frame_renderer.md R100, which the tick level refines. Nothing here is called by `step`. -/

namespace Sys2Proof.Machine

/-- What a row read returns: the time of the read, the column driven, the row, and whether it is the second read. -/
abbrev RowAnswer := Nat → Index4 → Index4 → Bool → Bool

/-- A piece of a sweep: its `DriveCols` and `ReadRow` events, the key it confirmed, and the time of the tick after it. -/
structure Sweep where
  events : List Event
  key : Option (Index4 × Index4)
  time : Nat
deriving DecidableEq, Repr

/-- The rows of one column from time `t` on (42_keypad_scanner.md R120, R122 to R125); a wait is `d` ticks long. -/
def sweepRows (ans : RowAnswer) (d : Nat) (c : Index4) : List Index4 → Nat → Sweep
  | [], t => ⟨[], none, t⟩
  | r :: rs, t =>
    if ans t c r false then
      if ans (t + d + 1) c r true then
        ⟨[.read c r false true, .read c r true true], some (r, c), t + d + 2⟩
      else
        let q := sweepRows ans d c rs (t + d + 2)
        ⟨[.read c r false true, .read c r true false] ++ q.events, q.key, q.time⟩
    else
      let q := sweepRows ans d c rs (t + 1)
      ⟨.read c r false false :: q.events, q.key, q.time⟩

/-- The columns from time `t` on (42_keypad_scanner.md R120, R121); a column settles for `st` ticks. -/
def sweepCols (ans : RowAnswer) (st d : Nat) : List Index4 → Nat → Sweep
  | [], t => ⟨[], none, t⟩
  | c :: cs, t =>
    let q := sweepRows ans d c [0, 1, 2, 3] (t + st)
    match q.key with
    | some k => ⟨.cols (onehot c) :: q.events ++ [.cols 0b0000#4], some k, q.time⟩
    | none =>
      let w := sweepCols ans st d cs (q.time + 1)
      ⟨.cols (onehot c) :: q.events ++ .cols 0b0000#4 :: w.events, w.key, w.time⟩

/-- `SCAN()` whose acceptance tick is time 0 (42_keypad_scanner.md R120). -/
def opScan (ans : RowAnswer) (st d : Nat) : Sweep := sweepCols ans st d [0, 1, 2, 3] 1

/-- The result of a sweep as the result register shows it (42_keypad_scanner.md R120). -/
def Sweep.result (w : Sweep) : Result :=
  match w.key with
  | some (r, c) => .key true r c
  | none => .key false 0 0

/-- The words of `RENDER M, C`, pixel by pixel from the supply of draws at `n` (41_frame_renderer.md R100, R101). -/
def opRenderFrom (o : ChannelOrder) (mask : Mask) (c : Color) : List PixelIndex → Nat → List (PixelIndex × Word)
  | [], _ => []
  | i :: is, n =>
    let w := encodePixel o n mask[i] c
    (i, w.1) :: opRenderFrom o mask c is w.2

/-- The 25 words of `RENDER M, C` in index order (41_frame_renderer.md R100, R102). -/
def opRender (o : ChannelOrder) (n : Nat) (mask : Mask) (c : Color) : List (PixelIndex × Word) :=
  opRenderFrom o mask c (List.finRange 25) n

end Sys2Proof.Machine
end

