-- ==== Sys2Proof/WellFormed.lean ====
section
/-! DEFINITION. Which operations are well formed: words and rates that the spec says never occur or are refused are not, and
the table of a DISPATCH has the entries that the source fixes. -/

namespace Sys2Proof

open Sys2Proof.Machine

/-- An animation is admitted when its rate is not 0 (43_host_sequences.md R151, 93_implementation_defined.md U7). -/
def Animation.admitted (a : Animation) : Bool := a.fps != 0

/-- Every animation an action starts is admitted (43_host_sequences.md R151). -/
def Action.admitted : Action → Bool
  | .play a => a.admitted
  | .fill _ => true
  | .off => true
  | .melody => true
  | .nothing => true

/-- Well-formed operations. Intensities may have any value: nothing checks them (30_encoding.md R72). The table of DISPATCH is
a parameter but for its three fixed entries (00_scope.md R5, 43_host_sequences.md R157; log 26). -/
def Instr.wellFormed : Instr → Bool
  | .nop => true
  | .scan => true
  | .render _ _ => true
  | .reserved => true
  | .fill _ => true
  | .off => true
  | .encode _ _ _ => true
  | .coldrive v => legalCols v
  | .rowread _ => true
  | .keyresult valid row col => legalKey valid row col
  | .play a => a.admitted
  | .awaitRelease => true
  | .dispatch table _ => holdsFixedEntries table && table.all fun e => e.2.admitted
  | .pause _ => true

end Sys2Proof
end

