-- ==== Sys2Proof/Safety.lean ====
section
/-! DEFINITION. What counts as a safe run: the invariants of 10_state.md R31, final states, what each outside agent is
assumed to do when a claim names it (60_exceptions.md R176), and views of the history that claims use. -/

namespace Sys2Proof.Machine

/-- The column register against the sequencer's position (10_state.md R31 a, b, c): `K_DRIVE` is on its first tick while
`cnt` still holds `SETTLE_TICKS`. -/
def State.colsOk (s : State) : Bool :=
  match s.phase with
  | .idle => s.col == 0b0000#4
  | .kDrive =>
    decide (1 ≤ s.cnt) && decide (s.cnt ≤ s.params.settleTicks) &&
      (if s.cnt = s.params.settleTicks then s.col == 0b0000#4 else s.col == onehot s.c)
  | .kSample => s.col == onehot s.c
  | .kWait => s.col == onehot s.c && decide (1 ≤ s.cnt) && decide (s.cnt ≤ s.params.debounceTicks)
  | .kResample => s.col == onehot s.c
  | .kRelease => s.col == onehot s.c
  | .lLoad => s.col == 0b0000#4
  | .lPush => s.col == 0b0000#4

/-- The invariants of 10_state.md R31, with the two facts on the words that are never produced (30_encoding.md R72) and
the bounds on `cnt` that keep R31 (b) and (g) inductive. -/
def State.invariant (s : State) : Bool :=
  decide (1 ≤ s.params.settleTicks) && decide (1 ≤ s.params.debounceTicks) &&
  s.colsOk &&
  (s.ledValid == (s.phase == .lPush)) &&
  (!s.done || s.phase == .idle) &&
  decide (s.cnt ≤ max s.params.debounceTicks s.params.settleTicks) &&
  legalKey s.keyValid s.keyRow s.keyCol &&
  (s.ledWord.extractLsb' 0 8 == lowByte)

/-- A run is final only in a state with `phase = IDLE` (60_exceptions.md R177). -/
def State.final (s : State) : Bool := s.phase == .idle

/-- The words transferred so far, oldest first (10_state.md R35). -/
def State.ledStream (s : State) : List (PixelIndex × Word) :=
  s.events.filterMap fun e =>
    match e with
    | .emit i w => some (i, w)
    | _ => none

/-- The words of the frame in progress that are still to be transferred, in order (41_frame_renderer.md R100): in `L_LOAD`
those from pixel `i` on, in `L_PUSH` the word on offer and those after it. -/
def State.toSend (s : State) : List (PixelIndex × Word) :=
  match s.phase with
  | .lLoad => opRenderFrom s.params.order s.mask s.color ((List.finRange 25).drop s.i.val) s.draws
  | .lPush =>
    (s.i, s.ledWord) ::
      opRenderFrom s.params.order s.mask s.color ((List.finRange 25).drop (s.i.val + 1)) s.draws
  | .idle => []
  | .kDrive => []
  | .kSample => []
  | .kWait => []
  | .kResample => []
  | .kRelease => []

/-- The result register as one value (10_state.md R18). -/
def State.key (s : State) : Bool × Index4 × Index4 := (s.keyValid, s.keyRow, s.keyCol)

/-- The transfer that the wires show on this tick, if any (10_state.md R35, 70_reset_and_hazards.md R192). -/
def State.emitted (s : State) : List Event := if s.transfer then [.emit s.i s.ledWord] else []

/-- The change of the column outputs to `v` that the wires show, if it is one (10_state.md R35). -/
def State.colsTo (s : State) (v : BitVec 4) : List Event := if v = s.col then [] else [.cols v]

/-- `s` one tick later with nothing changed but the bookkeeping of time and history. -/
def State.afterTick (s : State) (evs : List Event) : State :=
  { s with inputs := s.inputs.tail, tick := s.tick + 1, sleep := s.sleep - 1, events := s.events ++ evs }

/-- The operations that take a tick of the block: all but the host sequences (30_encoding.md R74). -/
def takesTick : Instr → Bool
  | .nop => true
  | .scan => true
  | .render _ _ => true
  | .reserved => true
  | .fill _ => true
  | .off => true
  | .encode _ _ _ => true
  | .coldrive _ => true
  | .rowread _ => true
  | .keyresult _ _ _ => true
  | .play _ => false
  | .awaitRelease => false
  | .dispatch _ _ => false
  | .pause _ => false

/-- The lowest bit of the red byte in the LED word, written out from 30_encoding.md R63 and 40_color_encoder.md R90. -/
def redAt : ChannelOrder → Nat
  | .rgb => 24
  | .rbg => 24
  | .grb => 16
  | .gbr => 8
  | .brg => 16
  | .bgr => 8

/-- The lowest bit of the green byte, likewise. -/
def greenAt : ChannelOrder → Nat
  | .rgb => 16
  | .rbg => 8
  | .grb => 24
  | .gbr => 24
  | .brg => 8
  | .bgr => 16

/-- The lowest bit of the blue byte, likewise. -/
def blueAt : ChannelOrder → Nat
  | .rgb => 8
  | .rbg => 16
  | .grb => 8
  | .gbr => 16
  | .brg => 24
  | .bgr => 24

/-- The draws a byte takes: one if it is out of range (93_implementation_defined.md U1). -/
def drawsOf (exact : Bool) : Nat := if exact then 0 else 1

/-- The byte of a channel of value `v`: exact, or the draw `n` of the supply (40_color_encoder.md R91, R92). -/
def byteOrDraw (exact : Bool) (v : Intensity) (n : Nat) : Byte :=
  if exact then BitVec.ofInt 8 (v * 255).floor else Config.freeByte n

/-- The words of a frame whose factors are all in range: pixel `k` is `trunc(M[k] * channel * 255)` in each byte
(41_frame_renderer.md R101). -/
def frameWords (o : ChannelOrder) (mask : Mask) (c : Color) : List (PixelIndex × Word) :=
  (List.finRange 25).map fun k =>
    (k, packWord o (truncByte (mask[k] * c.red)) (truncByte (mask[k] * c.green)) (truncByte (mask[k] * c.blue)))

/-- Every factor of a frame is in range. -/
def frameInRange (mask : Mask) (c : Color) : Bool := (List.finRange 25).all fun k => pixelInRange mask[k] c

/-- How many row reads a history holds (42_keypad_scanner.md R122). -/
def readCount (evs : List Event) : Nat :=
  evs.countP fun e =>
    match e with
    | .read _ _ _ _ => true
    | _ => false

/-- The order of a sweep: columns outermost (42_keypad_scanner.md R127), as (row, column) pairs. -/
def sweepOrder : List (Index4 × Index4) :=
  (List.finRange 4).flatMap fun c => (List.finRange 4).map fun r => (r, c)

/-! ### The outside agents' duties (60_exceptions.md R176)

What the agents may do is in the inputs and in the host's program; what they are assumed to do stands here, one predicate
for each duty, and holds in a claim only where the claim names it. No definition of the step uses them. The duty of
`row_in` is `idealMatrix`; that of `rst` at power-up lies before the first state of a run (log 24). -/

/-- A defined opcode, or an operation that is no command. -/
def definedOpcode : Instr → Bool
  | .nop => true
  | .scan => true
  | .render _ _ => true
  | .reserved => false
  | .fill _ => true
  | .off => true
  | .encode _ _ _ => true
  | .coldrive _ => true
  | .rowread _ => true
  | .keyresult _ _ _ => true
  | .play _ => true
  | .awaitRelease => true
  | .dispatch _ _ => true
  | .pause _ => true

/-- The operands of a RENDER, spelled as FILL or OFF too, are in range; no other operation is asked for anything. -/
def operandsInRange : Instr → Bool
  | .nop => true
  | .scan => true
  | .render mask color => (List.finRange 25).all fun k => pixelInRange mask[k] color
  | .reserved => true
  | .fill color => pixelInRange 1 color
  | .off => true
  | .encode _ _ _ => true
  | .coldrive _ => true
  | .rowread _ => true
  | .keyresult _ _ _ => true
  | .play _ => true
  | .awaitRelease => true
  | .dispatch _ _ => true
  | .pause _ => true

/-- `cmd_valid`, `cmd_op`: only NOP, SCAN, RENDER are offered, on whatever tick: nothing during a pause, by a script the
head of its program in IDLE, by a host without a script what stands on the port, busy or not (log 7). -/
def State.opcodeDuty (s : State) : Bool :=
  decide (0 < s.sleep) ||
    match s.program with
    | .issue i :: _ => s.phase != .idle || definedOpcode i
    | _ :: _ => true
    | [] => !s.pins.cmdValid || s.pins.cmdOp != 0b11#2

/-- `op_mask`, `op_color`: in range on the tick on which a RENDER is accepted, and free on every other. -/
def State.operandDuty (s : State) : Bool :=
  s.phase != .idle ||
    match fetch s with
    | .run i _ => operandsInRange i
    | .host _ _ => true
    | .tick => true

/-- Result reading: the last SCAN that was accepted has shown `done`, so KEY holds its result. -/
def State.scanDone (s : State) : Bool :=
  (s.events.filterMap fun e =>
    match e with
    | .accept op => if op = .scan then some false else none
    | .done (.key _ _ _) => some true
    | .done .frame => none
    | .cols _ => none
    | .read _ _ _ _ => none
    | .emit _ _ => none).getLast? == some true

/-- The host move that uses KEY. -/
def HostOp.usesKey : HostOp → Bool
  | .issue _ => false
  | .untilNone => true
  | .branchOnKey _ _ => true
  | .enter _ => false
  | .melody => false

/-- Result reading: KEY is used only after `done` of the host's own SCAN. -/
def State.readDuty (s : State) : Bool :=
  match fetch s with
  | .run _ _ => true
  | .host op _ => !op.usesKey || s.scanDone
  | .tick => true

/-- The host's duties on one step (also 43_host_sequences.md R160). -/
def State.hostDuty (s : State) : Bool := s.opcodeDuty && s.operandDuty && s.readDuty

/-- A signal is 1 infinitely often. -/
def InfinitelyOften (f : Nat → Bool) : Prop := ∀ n, ∃ k, n ≤ k ∧ f k = true

/-- The LED peripheral's duty: `led_ready` is 1 infinitely often, the fairness premise of 60_exceptions.md R172. -/
def State.fairPeripheral (s : State) : Prop := InfinitelyOften fun k => (s.pinsAt k).ledReady

/-- The LED peripheral's other duty: what it took is what was transferred, in order. -/
def State.consumed (s : State) (taken : List Word) : Prop := taken = s.ledStream.map Prod.snd

/-- The nodes of the key matrix's graph: row lines and column lines (20_memory.md R53). -/
inductive Line where
  | row (r : Index4)
  | col (c : Index4)
deriving DecidableEq, Repr

/-- The pressed keys of a tick. -/
abbrev Pressed := List (Index4 × Index4)

/-- Two lines joined by a pressed key (20_memory.md R53). -/
def joined (p : Pressed) : Line → Line → Bool
  | .row r, .col c => p.contains (r, c)
  | .col c, .row r => p.contains (r, c)
  | .row _, .row _ => false
  | .col _, .col _ => false

/-- The eight lines. -/
def allLines : List Line := (List.finRange 4).map Line.row ++ (List.finRange 4).map Line.col

/-- The lines within `n` pressed keys of those of a list. -/
def reach (p : Pressed) : Nat → List Line → List Line
  | 0, ls => ls
  | n + 1, ls => reach p n (allLines.filter fun l => ls.contains l || ls.any fun m => joined p m l)

/-- The columns of a row line's connected component (eight lines, so seven keys suffice). -/
def componentCols (p : Pressed) (r : Index4) : List Index4 :=
  (List.finRange 4).filter fun c => (reach p 7 [.row r]).contains (.col c)

/-- The IDEAL MATRIX on one tick (20_memory.md R53): a row with no pressed key reads 0; a row whose component holds only
columns driven to one level reads that level; where the levels fight it reads any value.
PRESUMED: the spec marks it as general knowledge and offers it as an assumption that a claim must name (log 20). -/
def idealMatrix (p : Pressed) (col rowIn : BitVec 4) : Bool :=
  (List.finRange 4).all fun r =>
    let cs := componentCols p r
    if cs.isEmpty then !readRow rowIn r
    else if cs.all fun c => readRow col c then readRow rowIn r
    else if cs.all fun c => !readRow col c then !readRow rowIn r
    else true

end Sys2Proof.Machine
end

