-- ==== Sys2Proof/Certificates/Slice0/Obligations.lean ====
section
/-! DEFINITION. The statements for the provers. Each says which rule of the spec it formalises; where a rule is marked in the
spec as its own decision or inference, or a clause is the model's choice, the docstring says so. -/

open Sys2Proof Sys2Proof.Machine

/-! ### Commands -/

/-- R135 and R71 (the spec's decision D3): NOP and the reserved code are accepted in IDLE and change no register;
`done` is not set, and the next command can be accepted on the next tick. -/
def Obligations.NopAndReservedChangeNothing : Prop :=
  ∀ s : State, s.phase = .idle → s.pins.rst = false →
    exec .nop s = .next { s.afterTick (.accept .nop :: s.emitted) with done := false } ∧
    exec .reserved s = .next { s.afterTick (.accept .reserved :: s.emitted) with done := false }

/-- 10_state.md section 8, row SCAN of the transition table (decision D12): what the acceptance of a SCAN writes. -/
def Obligations.ScanAcceptanceStartsSweep : Prop :=
  ∀ s : State, s.phase = .idle → s.pins.rst = false →
    exec .scan s = .next { s.afterTick (.accept .scan :: s.emitted) with
      done := false, c := 0, r := 0, cnt := s.params.settleTicks, phase := .kDrive }

/-- R104, R22, R23 (decision D4): the acceptance of a RENDER copies the operands, whatever their values, and starts at
pixel 0. -/
def Obligations.RenderAcceptanceCapturesOperands : Prop :=
  ∀ (s : State) (mask : Mask) (color : Color), s.phase = .idle → s.pins.rst = false →
    exec (.render mask color) s = .next { s.afterTick (.accept (.render mask color) :: s.emitted) with
      done := false, mask := mask, color := color, i := 0, phase := .lLoad }

/-- R106, with R104 and 10_state.md section 8 (decisions D4, D12) for the accepted state: FILL is `RENDER ONES, color`
in every state, it is accepted in IDLE, and for an in-range colour (no other is spoken of in the third clause) its 25
words are all `ENCODE(color)`. -/
def Obligations.FillIsRenderOnes : Prop :=
  (∀ (s : State) (color : Color), exec (.fill color) s = exec (.render (Vector.replicate 25 1) color) s) ∧
  (∀ (s : State) (color : Color), s.phase = .idle → s.pins.rst = false →
    exec (.fill color) s =
      .next { s.afterTick (.accept (.render (Vector.replicate 25 1) color) :: s.emitted) with
        done := false, mask := Vector.replicate 25 1, color := color, i := 0, phase := .lLoad }) ∧
  (∀ (o : ChannelOrder) (n : Nat) (color : Color),
    inRange color.red = true → inRange color.green = true → inRange color.blue = true →
    opRender o n (Vector.replicate 25 1) color =
      (List.finRange 25).map fun k => (k, (encodeWord o n color.red color.green color.blue).1))

/-- R107, with R104 and 10_state.md section 8 (decisions D4, D12) for the accepted state: OFF is `RENDER ZEROS, (0, 0,
0)` in every state, it is accepted in IDLE, and its 25 words are all 0x00000000. -/
def Obligations.OffIsRenderZeros : Prop :=
  (∀ s : State, exec .off s = exec (.render (Vector.replicate 25 0) ⟨0, 0, 0⟩) s) ∧
  (∀ s : State, s.phase = .idle → s.pins.rst = false →
    exec .off s =
      .next { s.afterTick (.accept (.render (Vector.replicate 25 0) ⟨0, 0, 0⟩) :: s.emitted) with
        done := false, mask := Vector.replicate 25 0, color := ⟨0, 0, 0⟩, i := 0, phase := .lLoad }) ∧
  (∀ (o : ChannelOrder) (n : Nat),
    opRender o n (Vector.replicate 25 0) ⟨0, 0, 0⟩ = (List.finRange 25).map fun k => (k, 0x00000000#32))

/-- R174 (d), R200 (decision D18): a command offered while the block is busy is not accepted and has no effect: the tick is
the one without it. The statement says where a command WAITS. -/
def Obligations.BusyBlockTurnsCommandsAway : Prop :=
  ∀ (s : State) (mask : Mask) (color : Color), s.phase ≠ .idle →
    exec .nop s = .next (tickAlone s) ∧ exec .scan s = .next (tickAlone s) ∧
    exec (.render mask color) s = .next (tickAlone s) ∧ exec .reserved s = .next (tickAlone s) ∧
    exec (.fill color) s = .next (tickAlone s) ∧ exec .off s = .next (tickAlone s)

/-! ### Reset -/

/-- R190, R33 (decision D16, `col` derived in the spec): the state after reset and its outputs. `M` and `C` are
unspecified there and are not mentioned. -/
def Obligations.ResetStateIsQuiescent : Prop :=
  State.reset.phase = .idle ∧ State.reset.c = 0 ∧ State.reset.r = 0 ∧ State.reset.cnt = 0 ∧ State.reset.i = 0 ∧
  State.reset.col = 0b0000#4 ∧ State.reset.keyValid = false ∧ State.reset.keyRow = 0 ∧ State.reset.keyCol = 0 ∧
  State.reset.done = false ∧ State.reset.ledWord = 0x00000000#32 ∧ State.reset.ledValid = false ∧
  State.reset.cmdReady = true ∧ State.reset.busy = false ∧ State.reset.keySym = 0x00#8 ∧
  State.reset.hostMode = .idle

/-- R191, R33, R174 (b), R192 (decisions D2, D16, D27): a tick with `rst = 1` gives the reset state whatever the state
and the other inputs were, and whatever operation is taken up on it; the wires show the column dropped, a word on
offer taken if the peripheral is ready, and no completion. `M` and `C` are unspecified and not mentioned. The model's
own: that the host's program is emptied as well (log 8), that exec of ENCODE, COLDRIVE, ROWREAD and KEYRESULT takes this
tick (log 9), and the exact list of events, in which a row of a `K_SAMPLE` or `K_RESAMPLE` reset tick is not read
(log 15). -/
def Obligations.ResetTickOverridesEverything : Prop :=
  ∀ s : State, s.pins.rst = true →
    ∃ t, step s = .next t ∧
      (∀ i : Instr, takesTick i = true → i.wellFormed = true → exec i s = .next t) ∧
      t.phase = .idle ∧ t.c = 0 ∧ t.r = 0 ∧ t.cnt = 0 ∧ t.i = 0 ∧ t.col = 0b0000#4 ∧
      t.keyValid = false ∧ t.keyRow = 0 ∧ t.keyCol = 0 ∧ t.done = false ∧
      t.ledWord = 0x00000000#32 ∧ t.ledValid = false ∧ t.hostMode = .idle ∧ t.program = [] ∧
      t.params = s.params ∧ t.inputs = s.inputs.tail ∧ t.tick = s.tick + 1 ∧
      t.events = s.events ++ s.colsTo 0b0000#4 ++ s.emitted

/-! ### The accesses the sequencer makes -/

/-- 10_state.md section 8, `K_DRIVE` (decision D12): COLDRIVE of a one-hot vector in `K_DRIVE`. The sequencer drives
`onehot(c)` there; that exec of COLDRIVE is that tick, with any one-hot vector, is the model's choice (log 9). -/
def Obligations.ColdriveDrivesOneColumn : Prop :=
  ∀ (s : State) (k : Index4), s.phase = .kDrive → s.pins.rst = false →
    exec (.coldrive (onehot k)) s =
      .next { s.afterTick (s.colsTo (onehot k) ++ s.emitted) with
        done := false, col := onehot k, r := 0,
        cnt := if 1 < s.cnt then s.cnt - 1 else 0,
        phase := if 1 < s.cnt then .kDrive else .kSample }

/-- 10_state.md section 8, `K_RELEASE` (decision D12): COLDRIVE of the zero vector in `K_RELEASE` goes on with the
next column or ends the sweep without a key. That exec of COLDRIVE is that tick is the model's choice (log 9). -/
def Obligations.ColdriveReleasesTheColumn : Prop :=
  ∀ s : State, s.phase = .kRelease → s.pins.rst = false →
    exec (.coldrive 0b0000#4) s =
      .next (if s.c.val < 3 then
        { s.afterTick (s.colsTo 0b0000#4 ++ s.emitted) with
          done := false, col := 0b0000#4, c := s.c + 1, cnt := s.params.settleTicks, phase := .kDrive }
      else
        { s.afterTick (s.colsTo 0b0000#4 ++ s.emitted ++ [.done (.key false 0 0)]) with
          done := true, col := 0b0000#4, keyValid := false, keyRow := 0, keyCol := 0, phase := .idle })

/-- 42_keypad_scanner.md R122, R123 and 10_state.md section 8, `K_SAMPLE`: the first read of a row. That exec of
ROWREAD, with either bit, is that tick is the model's choice (log 9). -/
def Obligations.FirstReadOfRow : Prop :=
  ∀ (s : State) (b : Bool), s.phase = .kSample → s.pins.rst = false →
    exec (.rowread b) s =
      .next (if b then
        { s.afterTick (.read s.c s.r false true :: s.emitted) with
          done := false, cnt := s.params.debounceTicks, phase := .kWait }
      else if s.r.val < 3 then
        { s.afterTick (.read s.c s.r false false :: s.emitted) with done := false, r := s.r + 1 }
      else
        { s.afterTick (.read s.c s.r false false :: s.emitted) with done := false, phase := .kRelease })

/-- 42_keypad_scanner.md R124, R125 and 10_state.md section 8, `K_RESAMPLE`: the second read of a row. That exec of
ROWREAD, with either bit, is that tick is the model's choice (log 9). -/
def Obligations.SecondReadOfRow : Prop :=
  ∀ (s : State) (b : Bool), s.phase = .kResample → s.pins.rst = false →
    exec (.rowread b) s =
      .next (if b then
        { s.afterTick (.read s.c s.r true true :: s.colsTo 0b0000#4 ++ s.emitted ++ [.done (.key true s.r s.c)]) with
          done := true, col := 0b0000#4, keyValid := true, keyRow := s.r, keyCol := s.c, phase := .idle }
      else if s.r.val < 3 then
        { s.afterTick (.read s.c s.r true false :: s.emitted) with done := false, r := s.r + 1, phase := .kSample }
      else
        { s.afterTick (.read s.c s.r true false :: s.emitted) with done := false, phase := .kRelease })

/-- R66, R175, R18 (decision D13) and 10_state.md section 8: the result is delivered on the last tick of a SCAN: a key
in `K_RESAMPLE`, `None` in `K_RELEASE` of column 3. The spec delivers the confirmed position `{1, r, c}` only; that
exec of KEYRESULT is that tick, and delivers any row and column it names in `K_RESAMPLE`, is the model's choice (log
9). O35 says what the sequencer delivers. -/
def Obligations.KeyresultIsDelivered : Prop :=
  ∀ (s : State), s.pins.rst = false →
    (s.phase = .kResample → ∀ row col : Index4,
      exec (.keyresult true row col) s =
        .next { s.afterTick (.read s.c s.r true true :: s.colsTo 0b0000#4 ++ s.emitted ++ [.done (.key true row col)]) with
          done := true, col := 0b0000#4, keyValid := true, keyRow := row, keyCol := col, phase := .idle }) ∧
    (s.phase = .kRelease → s.c = 3 →
      exec (.keyresult false 0 0) s =
        .next { s.afterTick (s.colsTo 0b0000#4 ++ s.emitted ++ [.done (.key false 0 0)]) with
          done := true, col := 0b0000#4, keyValid := false, keyRow := 0, keyCol := 0, phase := .idle })

/-- R90, R61, R63 (decisions D7, D8): the word of an in-range ENCODE under each of the six channel orders, each byte
the floor of `255 v` shifted to its place (`GRB` is `(G << 24) | (R << 16) | (B << 8) | 0`), with no draw taken. That
exec of an ENCODE of any channels is the tick of `L_LOAD` (10_state.md section 8), which puts the word on offer and
goes on to `L_PUSH`, is the model's choice (log 9): R90 makes ENCODE a function. -/
def Obligations.EncodePacksItsChannels : Prop :=
  ∀ (s : State) (red green blue : Intensity), s.phase = .lLoad → s.pins.rst = false →
    inRange red = true → inRange green = true → inRange blue = true →
    exec (.encode red green blue) s =
      .next { s.afterTick s.emitted with
        done := false, ledValid := true, phase := .lPush,
        ledWord := (BitVec.ofInt 32 (green * 255).floor <<< greenAt s.params.order) |||
          (BitVec.ofInt 32 (red * 255).floor <<< redAt s.params.order) |||
          (BitVec.ofInt 32 (blue * 255).floor <<< blueAt s.params.order) }

/-- R92, R90, R63, U1 (decisions D6, D7, D8): an ENCODE with channels out of range goes on: under each channel order
every byte in range is exact, every other is the next draw of the supply, one draw a byte, the low byte is zero (log
21), and nothing else is written. The drawn bytes are free values, in the order green, red, blue (log 3). That exec of
ENCODE is the tick of `L_LOAD`, with any operands, is the model's choice (log 9): `step` runs it for pixels in range
only, and R101 governs the others. -/
def Obligations.EncodeContinuesOutOfRange : Prop :=
  ∀ (s : State) (red green blue : Intensity), s.phase = .lLoad → s.pins.rst = false →
    ∃ w : Word,
      exec (.encode red green blue) s =
        .next { s.afterTick s.emitted with
          done := false, ledValid := true, phase := .lPush, ledWord := w,
          draws := s.draws + drawsOf (inRange green) + drawsOf (inRange red) + drawsOf (inRange blue) } ∧
      w.extractLsb' (greenAt s.params.order) 8 = byteOrDraw (inRange green) green s.draws ∧
      w.extractLsb' (redAt s.params.order) 8 =
        byteOrDraw (inRange red) red (s.draws + drawsOf (inRange green)) ∧
      w.extractLsb' (blueAt s.params.order) 8 =
        byteOrDraw (inRange blue) blue (s.draws + drawsOf (inRange green) + drawsOf (inRange red)) ∧
      w.extractLsb' 0 8 = 0x00#8

/-- The model's choice (log 9), over R40 and R32: away from the phase that makes an access, the tick passes without it. -/
def Obligations.AccessesElsewherePassTheTick : Prop :=
  ∀ s : State,
    (s.phase ≠ .kDrive → ∀ k : Index4, exec (.coldrive (onehot k)) s = .next (tickAlone s)) ∧
    (s.phase ≠ .kRelease → exec (.coldrive 0b0000#4) s = .next (tickAlone s)) ∧
    (s.phase ≠ .kSample → s.phase ≠ .kResample → ∀ b : Bool, exec (.rowread b) s = .next (tickAlone s)) ∧
    (s.phase ≠ .kResample → ∀ row col : Index4, exec (.keyresult true row col) s = .next (tickAlone s)) ∧
    ((s.phase ≠ .kRelease ∨ s.c ≠ 3) → exec (.keyresult false 0 0) s = .next (tickAlone s)) ∧
    (s.phase ≠ .lLoad → ∀ red green blue : Intensity, exec (.encode red green blue) s = .next (tickAlone s))

/-- The model's choice (log 10), over R64 and R72: exactly the column vectors and KEY codes that are never produced
are refused. -/
def Obligations.WordsNeverProducedAreRefused : Prop :=
  ∀ s : State,
    (∀ v : BitVec 4, exec (.coldrive v) s = .refused .columnVectorNeverDriven ↔ v ≠ 0b0000#4 ∧ ∀ k, v ≠ onehot k) ∧
    (∀ (valid : Bool) (row col : Index4),
      exec (.keyresult valid row col) s = .refused .keyCodeNeverProduced ↔ valid = false ∧ (row, col) ≠ (0, 0))

/-- 10_state.md section 8, `K_WAIT` (decision D12): the debounce count, on which the row is not observed. -/
def Obligations.WaitCountsDown : Prop :=
  ∀ s : State, s.phase = .kWait → s.pins.rst = false →
    step s = .next { s.afterTick s.emitted with
      done := false, cnt := if 1 < s.cnt then s.cnt - 1 else 0, phase := if 1 < s.cnt then .kWait else .kResample }

/-- R103 and 10_state.md section 8, `L_PUSH`: while the peripheral is not ready nothing changes; when it is, the word is
transferred and the next pixel or the end follows. -/
def Obligations.PushBlocksUntilAccepted : Prop :=
  ∀ s : State, s.phase = .lPush → s.ledValid = true → s.pins.rst = false →
    step s = .next (if s.pins.ledReady then
        if s.i.val < 24 then
          { s.afterTick [.emit s.i s.ledWord] with done := false, ledValid := false, i := s.i + 1, phase := .lLoad }
        else
          { s.afterTick [.emit s.i s.ledWord, .done .frame] with done := true, ledValid := false, phase := .idle }
      else { s.afterTick [] with done := false })

/-! ### Host sequences -/

/-- R150, R151 (decision D20 on the division and on the refusal, U7): PLAY is five RENDERs in order, each followed by
a pause of `1000 div fps` ms, and takes up nothing else; exactly an animation with `fps = 0` is refused. That PLAY
itself takes no tick is the model's choice (log 6). -/
def Obligations.PlayIsFiveRendersWithPauses : Prop :=
  ∀ (s : State) (a : Animation),
    (a.fps ≠ 0 →
      exec (.play a) s = .next { s with
        program :=
          [.issue (.render a.masks[0] a.color), .issue (.pause (1000 / a.fps)),
           .issue (.render a.masks[1] a.color), .issue (.pause (1000 / a.fps)),
           .issue (.render a.masks[2] a.color), .issue (.pause (1000 / a.fps)),
           .issue (.render a.masks[3] a.color), .issue (.pause (1000 / a.fps)),
           .issue (.render a.masks[4] a.color), .issue (.pause (1000 / a.fps))] ++ s.program }) ∧
    (exec (.play a) s = .refused .animationRateZero ↔ a.fps = 0)

/-- R154: AWAIT_RELEASE scans, and after each SCAN scans again unless it returned `None`; no pause stands between. That
the host's moves take no tick is the model's choice (logs 6, 7). -/
def Obligations.AwaitReleaseScansUntilNone : Prop :=
  (∀ s : State, exec .awaitRelease s = .next { s with program := [.issue .scan, .untilNone] ++ s.program }) ∧
  (∀ (s : State) (rest : List HostOp),
    s.phase = .idle → s.pins.rst = false → s.sleep = 0 → s.program = .untilNone :: rest →
    step s = .next (if s.keyValid then
        { s with hostKey := some s.keySym, program := [.issue .scan, .untilNone] ++ rest }
      else { s with hostKey := none, program := rest }))

/-- R153 (decision D19 on the place of the pause): DISPATCH scans in `Idle`; without a key it pauses 50 ms and goes
round. That the host's moves take no tick is the model's choice (logs 6, 7). -/
def Obligations.DispatchPollsInIdle : Prop :=
  (∀ (s : State) (table : ActionTable) (u : UnmappedAction),
    exec (.dispatch table u) s =
      .next { s with hostMode := .idle, program := [.issue .scan, .branchOnKey table u] ++ s.program }) ∧
  (∀ (s : State) (table : ActionTable) (u : UnmappedAction) (rest : List HostOp),
    s.phase = .idle → s.pins.rst = false → s.sleep = 0 → s.program = .branchOnKey table u :: rest →
    s.keyValid = false →
    step s = .next { s with
      hostKey := none
      program := [.issue (.pause 50), .issue (.dispatch table u)] ++ rest })

/-- R153, R156, R157, R106, R152: a confirmed key with an entry is dispatched, whatever its action: the host passes to
`KeyDetected`, and the action, the passage to `AwaitRelease`, the wait for release, the passage to `Idle`, the pause
and the next round stand in front of what it had to do. A fill is accepted on the same tick. The moves of the host's
state write nothing else. The melody keeps the host waiting for a free number of ticks (log 13). Every well-formed
DISPATCH has the three entries of R157, and the frame of (0.2, 0.2, 0.2) is 25 words 0x33333300. That a host move
takes no tick and that the host offers at once are the model's choices (logs 6, 7): R160 allows any idle time. That
the first of two entries of one symbol counts is its reading (log 22). That the wait for release stands before the next
`Idle` SCAN after PLAY and the melody too is R153's order, which the model takes beside R212 (log 27). The symbols'
codes are presumed (log 26). -/
def Obligations.DispatchedActionIsTaken : Prop :=
  (∀ (s : State) (table : ActionTable) (u : UnmappedAction) (rest : List HostOp) (act : Action),
    s.phase = .idle → s.pins.rst = false → s.sleep = 0 → s.program = .branchOnKey table u :: rest →
    s.keyValid = true → table.lookup s.keySym = some act →
    step s = .next { s with
      hostKey := some s.keySym
      hostMode := .keyDetected
      program :=
        (match act with
          | .play a => [.issue (.play a)]
          | .fill color => [.issue (.fill color)]
          | .off => [.issue .off]
          | .melody => [.melody]
          | .nothing => []) ++
        [.enter .awaitRelease, .issue .awaitRelease, .enter .idle, .issue (.pause 50),
          .issue (.dispatch table u)] ++ rest }) ∧
  (∀ (s : State) (table : ActionTable) (u : UnmappedAction) (rest : List HostOp) (color : Color),
    s.phase = .idle → s.pins.rst = false → s.sleep = 0 → s.program = .branchOnKey table u :: rest →
    s.keyValid = true → table.lookup s.keySym = some (.fill color) →
    ∃ t v, step s = .next t ∧ t.tick = s.tick ∧ step t = .next v ∧ v.tick = s.tick + 1 ∧
      v.hostMode = .keyDetected ∧ v.hostKey = some s.keySym ∧
      v.phase = .lLoad ∧ v.mask = Vector.replicate 25 1 ∧ v.color = color ∧ v.i = 0 ∧ v.key = s.key ∧
      v.program = [.enter .awaitRelease, .issue .awaitRelease, .enter .idle, .issue (.pause 50),
        .issue (.dispatch table u)] ++ rest) ∧
  (∀ (s : State) (m : HostMode) (rest : List HostOp),
    s.phase = .idle → s.pins.rst = false → s.sleep = 0 → s.program = .enter m :: rest →
    step s = .next { s with hostMode := m, program := rest }) ∧
  (∀ (s : State) (rest : List HostOp),
    s.phase = .idle → s.pins.rst = false → s.sleep = 0 → s.program = .melody :: rest →
    step s = .next { s with sleep := Config.freeMelody s.draws, draws := s.draws + 1, program := rest }) ∧
  (∀ (table : ActionTable) (u : UnmappedAction), (Instr.dispatch table u).wellFormed = true →
    (∃ (cross : Vector Mask 5) (red : Color), table.lookup 0x31#8 = some (.play ⟨cross, red, 10⟩)) ∧
    table.lookup 0x42#8 = some (.fill ⟨0, 0, 1⟩) ∧ table.lookup 0x23#8 = some (.fill ⟨1 / 5, 1 / 5, 1 / 5⟩)) ∧
  (∀ n : Nat, opRender .grb n (Vector.replicate 25 1) ⟨1 / 5, 1 / 5, 1 / 5⟩ =
    (List.finRange 25).map fun k => (k, 0x33333300#32))

/-- R158 (90_conflicts.md C6): a key with no entry does nothing, or under the variant turns the display off for a
digit; the wait for release follows in both. That a digit is a code 0x30 to 0x39 is the model's reading (log 22), and
that the host's moves take no tick is its choice (logs 6, 7). -/
def Obligations.UnmappedKeyStillAwaitsRelease : Prop :=
  ∀ (s : State) (table : ActionTable) (u : UnmappedAction) (rest : List HostOp),
    s.phase = .idle → s.pins.rst = false → s.sleep = 0 → s.program = .branchOnKey table u :: rest →
    s.keyValid = true → table.lookup s.keySym = none →
    step s = .next { s with
      hostKey := some s.keySym
      hostMode := .keyDetected
      program :=
        (if u = .offForDigits ∧ 0x30 ≤ s.keySym.toNat ∧ s.keySym.toNat ≤ 0x39 then [.issue .off] else []) ++
        [.enter .awaitRelease, .issue .awaitRelease, .enter .idle, .issue (.pause 50),
          .issue (.dispatch table u)] ++ rest }

/-- R159; the number of ticks is the model's choice (log 14): PAUSE sets the smallest number of ticks that lasts at
least `ms` milliseconds, and while it lasts no command is offered to the idle block and every output is steady. -/
def Obligations.PauseOffersNothingForItsTime : Prop :=
  (∀ (s : State) (ms : Nat), ∃ n : Nat,
    exec (.pause ms) s = .next { s with sleep := n } ∧
    ms * s.params.clkHz ≤ n * 1000 ∧ n * 1000 < ms * s.params.clkHz + 1000) ∧
  (∀ s : State, s.phase = .idle → s.pins.rst = false → 0 < s.sleep →
    step s = .next { s.afterTick s.emitted with done := false })

/-! ### The step -/

/-- 30_encoding.md R69, 10_state.md R32: with nothing in the host's program, a step with a command on the port is
`exec` of the operation the decoder reads there, and without one nothing happens. The host's program and pause are the
model's (log 7). -/
def Obligations.StepRunsTheOfferedCommand : Prop :=
  ∀ s : State, s.phase = .idle → s.pins.rst = false → s.sleep = 0 → s.program = [] →
    (s.pins.cmdValid = true → ∀ i, decode s.params.order (.cmd s.pins.cmdOp s.pins.opMask s.pins.opColor) = .ok i →
      step s = exec i s) ∧
    (s.pins.cmdValid = false → step s = .next { s.afterTick s.emitted with done := false })

/-- 30_encoding.md R75, 43_host_sequences.md R153: the head of the host's program is taken off and is what the step
runs. That the host offers it on the first idle step is the model's choice (log 7): R160 and R176 allow any idle time.
-/
def Obligations.StepRunsTheProgramHead : Prop :=
  ∀ (s : State) (i : Instr) (rest : List HostOp),
    s.phase = .idle → s.pins.rst = false → s.sleep = 0 → s.program = .issue i :: rest →
    step s = exec i { s with program := rest }

/-- 10_state.md section 8, 41_frame_renderer.md R101: in a busy phase the step runs the access that the phase makes,
with the operands the registers and the ports give; the tick of `L_LOAD`, also for a pixel with a factor out of range,
puts the word of the pixel on offer and takes the draws of the pixel. That the tick of a phase is exec of COLDRIVE,
ROWREAD or ENCODE is the model's choice (log 9); the last clause, on `L_LOAD`, is the transition table's. -/
def Obligations.StepRunsTheAccessOfThePhase : Prop :=
  ∀ s : State, s.pins.rst = false →
    (s.phase = .kDrive → step s = exec (.coldrive (onehot s.c)) s) ∧
    (s.phase = .kSample → step s = exec (.rowread (s.pins.rowIn.getLsbD s.r.val)) s) ∧
    (s.phase = .kResample → step s = exec (.rowread (s.pins.rowIn.getLsbD s.r.val)) s) ∧
    (s.phase = .kRelease → step s = exec (.coldrive 0b0000#4) s) ∧
    (s.phase = .lLoad → pixelInRange s.mask[s.i] s.color = true →
      step s = exec (.encode (s.mask[s.i] * s.color.red) (s.mask[s.i] * s.color.green) (s.mask[s.i] * s.color.blue)) s) ∧
    (s.phase = .lLoad →
      step s = .next { s.afterTick s.emitted with
        done := false, ledValid := true, phase := .lPush,
        ledWord := (encodePixel s.params.order s.draws s.mask[s.i] s.color).1,
        draws := (encodePixel s.params.order s.draws s.mask[s.i] s.color).2 })

/-- 10_state.md section 8 and R36, with 41_frame_renderer.md R101: whatever named access a busy phase makes, the step
is the sequencer's own tick. For `L_LOAD` this holds because products of in-range factors are in range. -/
def Obligations.BusyStepIsTheSequencersTick : Prop :=
  ∀ s : State, s.phase ≠ .idle → step s = .next (tickAlone s)

/-! ### Invariants and rules of the whole machine -/

/-- R31 at reset. -/
def Obligations.InvariantHoldsAtReset : Prop := State.reset.invariant = true

/-- R31 (the spec's inference): the columns, `led_valid`, `done` and `cnt` stay in step with the phase, and only the
words the spec allows stand in KEY and `led_word`. -/
def Obligations.EveryStepKeepsTheInvariant : Prop :=
  ∀ s t : State, s.invariant = true → step s = .next t → t.invariant = true

/-- R15, 00_scope.md R5: `cnt` fits in `CNT_W` bits. -/
def Obligations.CounterFitsItsWidth : Prop :=
  ∀ s : State, s.invariant = true → s.cnt < 2 ^ s.params.cntWidth

/-- R121: two columns are never high together, and between two columns all are low. -/
def Obligations.ColumnsChangeThroughAllLow : Prop :=
  ∀ s t : State, s.invariant = true → step s = .next t → s.col ≠ 0b0000#4 → t.col ≠ 0b0000#4 →
    t.col = s.col ∧ ∃ k, s.col = onehot k

/-- R27: no step changes a build constant. -/
def Obligations.BuildConstantsNeverChange : Prop :=
  ∀ s t : State, step s = .next t → t.params = s.params

/-- R18 (decision D13): KEY is written only on the tick a SCAN completes, with the confirmed position or with zeros,
and it is (0, 0, 0) at reset. -/
def Obligations.ResultRegisterWrittenOnlyAtCompletion : Prop :=
  State.reset.key = (false, 0, 0) ∧
  ∀ s t : State, s.pins.rst = false → step s = .next t →
    (if s.phase = .kResample ∧ s.pins.rowIn.getLsbD s.r.val = true then t.key = (true, s.r, s.c) ∧ t.done = true
     else if s.phase = .kRelease ∧ s.c = 3 then t.key = (false, 0, 0) ∧ t.done = true
     else t.key = s.key)

/-- R20 (decision D17): on a tick without reset `done` becomes 1 exactly when an operation completes, and it is 0 at
reset. -/
def Obligations.DoneMarksCompletionOnly : Prop :=
  State.reset.done = false ∧
  ∀ s t : State, s.pins.rst = false → step s = .next t → t.tick = s.tick + 1 →
    (t.done = true ↔ s.phase ≠ .idle ∧ t.phase = .idle)

/-- R22, R23 (decision D4): without a reset `M` and `C` are written only by the acceptance of a RENDER, together. -/
def Obligations.OperandsWrittenOnlyByRender : Prop :=
  ∀ s t : State, s.pins.rst = false → step s = .next t → (t.mask ≠ s.mask ∨ t.color ≠ s.color) →
    s.phase = .idle ∧ t.phase = .lLoad ∧ t.i = 0 ∧
    t.events = s.events ++ .accept (.render t.mask t.color) :: s.emitted

/-- R133 (h), R105: a SCAN does not touch the serializer's registers, and a RENDER does not touch the scanner's. -/
def Obligations.UnitsLeaveEachOtherAlone : Prop :=
  ∀ s t : State, s.pins.rst = false → step s = .next t →
    ((s.phase = .kDrive ∨ s.phase = .kSample ∨ s.phase = .kWait ∨ s.phase = .kResample ∨ s.phase = .kRelease) →
      t.ledWord = s.ledWord ∧ t.ledValid = s.ledValid ∧ t.mask = s.mask ∧ t.color = s.color ∧ t.i = s.i ∧
      t.program = s.program ∧ t.draws = s.draws) ∧
    ((s.phase = .lLoad ∨ s.phase = .lPush) →
      t.col = s.col ∧ t.key = s.key ∧ t.c = s.c ∧ t.r = s.r ∧ t.cnt = s.cnt ∧ t.mask = s.mask ∧
      t.color = s.color ∧ t.program = s.program)

/-- R32: on a tick, row inputs other than `row_in[r]` are ignored, and all of them outside `K_SAMPLE` and
`K_RESAMPLE`. (A host move that takes no time reads no input and leaves them for the tick, so the statement is about
steps that are ticks.) -/
def Obligations.OnlyTheRowBeingReadMatters : Prop :=
  ∀ (s t : State) (p : Pins) (ins : List Pins) (rows : BitVec 4), s.inputs = p :: ins →
    ((s.phase ≠ .kSample ∧ s.phase ≠ .kResample) ∨ rows.getLsbD s.r.val = p.rowIn.getLsbD s.r.val) →
    step s = .next t → t.tick = s.tick + 1 →
    step { s with inputs := { p with rowIn := rows } :: ins } = .next t

/-- R201, R174 (d): while the block is busy the command and operand ports have no effect. -/
def Obligations.BusyBlockIgnoresTheCommandPort : Prop :=
  ∀ (s : State) (p : Pins) (ins : List Pins) (v : Bool) (op : BitVec 2) (m : Mask) (c : Color),
    s.inputs = p :: ins → s.phase ≠ .idle →
    step { s with inputs := { p with cmdValid := v, cmdOp := op, opMask := m, opColor := c } :: ins } = step s

/-- R172, R177, R171 (X3): a peripheral that does not accept keeps the block in `L_PUSH` for as long as it does not,
with the word held. -/
def Obligations.UnreadyPeripheralHangsTheBlock : Prop :=
  ∀ (n : Nat) (s : State), s.phase = .lPush → s.ledValid = true →
    (∀ k, k < n → (s.pinsAt k).rst = false ∧ (s.pinsAt k).ledReady = false) →
    ∃ t, Host.Core.run Sys2Proof.core n s = .next t ∧ t.phase = .lPush ∧ t.ledValid = true ∧
      t.ledWord = s.ledWord ∧ t.i = s.i ∧ t.ledStream = s.ledStream ∧ t.tick = s.tick + n

/-! ### RENDER as a whole -/

/-- R100, R48, R102: the words already transferred followed by those still to come never change while a RENDER runs, and
at its acceptance those to come are the 25 words of the frame in index order. -/
def Obligations.RenderSendsItsFrameInOrder : Prop :=
  (∀ s t : State, s.phase = .idle → s.ledValid = false → s.pins.rst = false →
    ∀ (mask : Mask) (color : Color), exec (.render mask color) s = .next t →
      t.ledStream ++ t.toSend = s.ledStream ++ opRender s.params.order s.draws mask color ∧
      (opRender s.params.order s.draws mask color).map Prod.fst = List.finRange 25) ∧
  (∀ s t : State, (s.ledValid = true ↔ s.phase = .lPush) → (s.phase = .lLoad ∨ s.phase = .lPush) →
    s.pins.rst = false → step s = .next t →
    t.ledStream ++ t.toSend = s.ledStream ++ s.toSend)

/-- R101, R93: each byte of an in-range frame is the truncated exact triple product, and no draw is taken. -/
def Obligations.InRangeFrameIsExact : Prop :=
  ∀ (o : ChannelOrder) (n : Nat) (mask : Mask) (color : Color), frameInRange mask color = true →
    opRender o n mask color = frameWords o mask color

/-- R101, U1 (decision D6, 90_conflicts.md C11), with R63 and R90 for the places: under each channel order a byte of a
pixel is the floor of 255 times the exact product where the mask value and that channel are in range, and otherwise
the next draw of the supply, one draw a byte, although the product may be in range. So with the mask value out of
range all three bytes are drawn, with one channel out of range only that channel's. The drawn bytes are free values,
in the order green, red, blue (log 3); the low byte is zero (log 21). -/
def Obligations.PixelDrawsOnItsFactors : Prop :=
  ∀ (o : ChannelOrder) (n : Nat) (m : Intensity) (c : Color),
    let g := inRange m && inRange c.green
    let r := inRange m && inRange c.red
    let b := inRange m && inRange c.blue
    let p := encodePixel o n m c
    p.2 = n + drawsOf g + drawsOf r + drawsOf b ∧
    p.1.extractLsb' (greenAt o) 8 = byteOrDraw g (m * c.green) n ∧
    p.1.extractLsb' (redAt o) 8 = byteOrDraw r (m * c.red) (n + drawsOf g) ∧
    p.1.extractLsb' (blueAt o) 8 = byteOrDraw b (m * c.blue) (n + drawsOf g + drawsOf r) ∧
    p.1.extractLsb' 0 8 = 0x00#8

/-- R105, R177, R208 (the tick counts are the spec's own, D12): a RENDER accepted in IDLE completes on the 25th tick
on which it is in `L_PUSH` with the peripheral ready. Pixel `k` meets `stalls[k]` not-ready ticks in `L_PUSH` before
its ready one, any numbers, and each adds one busy tick: it is busy for 50 ticks and the stalls, neither more nor
fewer, sends the 25 words of its frame, and then shows `done`. On the tick of acceptance and in `L_LOAD` nothing is
asked of the peripheral. -/
def Obligations.RenderRunsToCompletion : Prop :=
  ∀ (s : State) (mask : Mask) (color : Color) (stalls : Vector Nat 25),
    s.phase = .idle → s.ledValid = false →
    (∀ k, k < 51 + stalls.toList.sum → (s.pinsAt k).rst = false) →
    (∀ (k : Fin 25) (j : Nat), j ≤ stalls[k] →
      (s.pinsAt (2 + 2 * k.val + (stalls.toList.take k.val).sum + j)).ledReady = decide (j = stalls[k])) →
    ∃ t u, exec (.render mask color) s = .next t ∧
      Host.Core.run Sys2Proof.core (50 + stalls.toList.sum) t = .next u ∧
      (∀ n v, n < 50 + stalls.toList.sum → Host.Core.run Sys2Proof.core n t = .next v → v.phase ≠ .idle) ∧
      u.phase = .idle ∧ u.done = true ∧ u.ledValid = false ∧ u.tick = s.tick + 51 + stalls.toList.sum ∧
      u.ledStream = s.ledStream ++ opRender s.params.order s.draws mask color ∧
      u.col = s.col ∧ u.key = s.key ∧ u.program = s.program

/-- R150, S3 (tick counts as above): with the peripheral always ready and an in-range animation, PLAY sends its five
frames in order, 125 words, and the host goes on with what stood behind it. The numbers of steps and ticks rest on the
model's choices: the host's moves take no tick and it offers at once (logs 6, 7), and a pause is the least number of
ticks that lasts its time (log 14). Animations with values out of range are not spoken of. -/
def Obligations.PlaySendsFiveFrames : Prop :=
  ∀ (s : State) (a : Animation), a.fps ≠ 0 → s.phase = .idle → s.ledValid = false → s.sleep = 0 →
    (∀ j : Fin 5, frameInRange a.masks[j] a.color = true) →
    (∀ k, k < 5 * (51 + msTicks s.params (1000 / a.fps)) → (s.pinsAt k).rst = false ∧ (s.pinsAt k).ledReady = true) →
    ∃ t u, exec (.play a) s = .next t ∧
      Host.Core.run Sys2Proof.core (5 * (52 + msTicks s.params (1000 / a.fps))) t = .next u ∧
      u.phase = .idle ∧ u.sleep = 0 ∧ u.program = s.program ∧ u.key = s.key ∧
      u.ledStream = s.ledStream ++ a.masks.toList.flatMap fun m => frameWords s.params.order m a.color

/-! ### SCAN as a whole -/

/-- 00_scope.md R6, R120, R129 (tick counts the spec's own, D10 to D12): from its acceptance a SCAN runs the
operation-level procedure on the row bits of the ticks at which it reads: the same column and row events in the same
order, the same result, and `done` on the tick after the last busy one. -/
def Obligations.ScanRefinesTheProcedure : Prop :=
  ∀ s : State, s.phase = .idle → s.col = 0b0000#4 → s.ledValid = false →
    1 ≤ s.params.settleTicks → 1 ≤ s.params.debounceTicks →
    let w := opScan (fun t _ r _ => (s.pinsAt t).rowIn.getLsbD r.val) s.params.settleTicks s.params.debounceTicks
    (∀ k, k < w.time → (s.pinsAt k).rst = false) →
    ∃ t u, exec .scan s = .next t ∧ Host.Core.run Sys2Proof.core (w.time - 1) t = .next u ∧
      u.phase = .idle ∧ u.done = true ∧ u.col = 0b0000#4 ∧ u.tick = s.tick + w.time ∧
      .key u.keyValid u.keyRow u.keyCol = w.result ∧
      u.events = s.events ++ .accept .scan :: w.events ++ [.done w.result] ∧
      u.ledWord = s.ledWord ∧ u.mask = s.mask ∧ u.color = s.color ∧ u.i = s.i ∧ u.program = s.program

/-- R177, R206 (d), R122: a sweep ends within `4 (S + 5) + 16 (D + 1)` busy ticks and 32 reads whatever the rows do,
and one that confirms nothing makes at least 16 reads. -/
def Obligations.SweepAlwaysEnds : Prop :=
  ∀ (ans : RowAnswer) (st d : Nat),
    (opScan ans st d).time ≤ 4 * (st + 5) + 16 * (d + 1) + 1 ∧
    readCount (opScan ans st d).events ≤ 32 ∧
    ((opScan ans st d).key = none → 16 ≤ readCount (opScan ans st d).events)

/-- R128, R129: with the two reads of one position the only ones that return 1, that position is the result, after `c
(S + 5) + S + r + 2 + D` busy ticks and `4c + r + 2` reads. And under the ideal matrix of R53 with exactly that key
pressed, whatever bits it admits for each read while a column is driven, the same holds (the spec marks the matrix as
general knowledge; log 20). -/
def Obligations.SingleKeyIsFound : Prop :=
  ∀ (st d : Nat) (r c : Index4) (ans : RowAnswer),
    ((∀ t c' r' k, ans t c' r' k = (decide (c' = c) && decide (r' = r))) ∨
      (∀ t c' r' k, ∃ rowIn, idealMatrix [(r, c)] (onehot c') rowIn = true ∧ ans t c' r' k = rowIn.getLsbD r'.val)) →
    (opScan ans st d).key = some (r, c) ∧
    (opScan ans st d).time = c.val * (st + 5) + st + r.val + 2 + d + 1 ∧
    readCount (opScan ans st d).events = 4 * c.val + r.val + 2

/-- R126 (with R129 and R122): a sweep in which no row is ever active returns "no key pressed" after `4 (S + 5)` busy
ticks and 16 reads, the columns low at its end. -/
def Obligations.NoRowActiveGivesNone : Prop :=
  ∀ (st d : Nat) (ans : RowAnswer), (∀ t c r k, ans t c r k = false) →
    (opScan ans st d).key = none ∧ (opScan ans st d).time = 4 * (st + 5) + 1 ∧
    readCount (opScan ans st d).events = 16 ∧
    (opScan ans st d).events.getLast? = some (.cols 0b0000#4)

/-- R123, S5: a row active for a first read but inactive on the recheck is not reported. -/
def Obligations.UnconfirmedReadIsNotReported : Prop :=
  ∀ (st d : Nat) (ans : RowAnswer) (r c : Index4), (∀ t, ans t c r true = false) →
    (opScan ans st d).key ≠ some (r, c)

/-- R127: the first confirmed press in column-then-row order wins, first confirmed and not first seen. -/
def Obligations.FirstConfirmedKeyWins : Prop :=
  ∀ (st d : Nat) (rd : Index4 → Index4 → Bool → Bool),
    (opScan (fun _ c r k => rd c r k) st d).key =
      sweepOrder.find? fun p => rd p.2 p.1 false && rd p.2 p.1 true

/-! ### The colour encoder and the encodings -/

/-- R91: the channel byte of an in-range intensity, with the corner cases the rule lists; no draw is taken. The monotony
is the spec's own inference from the definition, and that the ranges of 0 and 254 are exactly those the rule lists goes
beyond its words. -/
def Obligations.ChannelByteTruncates : Prop :=
  (∀ (n : Nat) (v : Intensity), 0 ≤ v → v ≤ 1 →
    ∃ b : Byte, channelByte n v = (b, n) ∧ (b.toNat : Int) = (v * 255).floor ∧ (b = 255#8 ↔ v = 1) ∧
      (b = 0#8 ↔ v < 1 / 255) ∧ (b = 254#8 ↔ 254 / 255 ≤ v ∧ v < 1)) ∧
  (∀ (n : Nat) (u v : Intensity), 0 ≤ u → u ≤ v → v ≤ 1 → (channelByte n u).1 ≤ (channelByte n v).1) ∧
  (∀ n : Nat, channelByte n 0 = (0#8, n) ∧ channelByte n 1 = (255#8, n) ∧ channelByte n (1 / 255) = (1#8, n) ∧
    channelByte n (254 / 255) = (254#8, n) ∧ channelByte n (1 / 2) = (127#8, n) ∧
    channelByte n (7 / 10) = (178#8, n) ∧ channelByte n (998 / 1000) = (254#8, n) ∧
    channelByte n (9985 / 10000) = (254#8, n))

/-- R95 with R90 and R63 (decision D8) for the places under all six channel orders: for all channels in [0, 1] the
three bytes are the truncations, in the documented positions; the low byte is zero (R61's decision D7; log 21). -/
def Obligations.EncodedBytesInTheirPositions : Prop :=
  ∀ (o : ChannelOrder) (n : Nat) (red green blue : Intensity),
    0 ≤ red → red ≤ 1 → 0 ≤ green → green ≤ 1 → 0 ≤ blue → blue ≤ 1 →
    let w := (encodeWord o n red green blue).1
    ((w.extractLsb' (greenAt o) 8).toNat : Int) = (green * 255).floor ∧
    ((w.extractLsb' (redAt o) 8).toNat : Int) = (red * 255).floor ∧
    ((w.extractLsb' (blueAt o) 8).toNat : Int) = (blue * 255).floor ∧ w.extractLsb' 0 8 = 0x00#8

/-- 30_encoding.md R60 to R73: decoding the code of any well-formed operation that has one gives the operation as the
block sees it, under every channel order; and an ENCODE of three N255 intensities, at every value of their codes, has
a code and is given back itself. That an LED word is read as the ENCODE of N255 intensities is the model's choice (log
17): R90 gives ENCODE no encoding. -/
def Obligations.DecodeOfEncodeGivesItBack : Prop :=
  (∀ (o : ChannelOrder) (i : Instr) (c : Code), i.wellFormed = true → encode o i = some c →
    decode o c = .ok i.asSeen) ∧
  (∀ (o : ChannelOrder) (a b c : Byte),
    (∃ w, encode o (.encode (n255 a) (n255 b) (n255 c)) = some w) ∧
    (Instr.encode (n255 a) (n255 b) (n255 c)).asSeen = .encode (n255 a) (n255 b) (n255 c))

/-- 30_encoding.md R61 to R66, R69 to R71: each word of the formats W, COL, ROW and KEY that decodes has one meaning:
encoding it gives the word back. So does a RENDER command with its operands, and every command gives its code back
(the other commands have no operands). That an LED word is read as the ENCODE of N255 intensities is the model's
choice (log 17). -/
def Obligations.EncodeOfDecodeGivesTheWordBack : Prop :=
  ∀ (o : ChannelOrder) (i : Instr),
    (∀ w : Word, decode o (.led w) = .ok i → encode o i = some (.led w)) ∧
    (∀ v : BitVec 4, decode o (.col v) = .ok i → encode o i = some (.col v)) ∧
    (∀ a : BitVec 1, decode o (.row a) = .ok i → encode o i = some (.row a)) ∧
    (∀ k : BitVec 5, decode o (.key k) = .ok i → encode o i = some (.key k)) ∧
    (∀ (m : Mask) (c : Color), decode o (.cmd 0b10 m c) = .ok i → encode o i = some (.cmd 0b10 m c)) ∧
    (∀ (op : BitVec 2) (m : Mask) (c : Color), decode o (.cmd op m c) = .ok i →
      ∃ (m' : Mask) (c' : Color), encode o i = some (.cmd op m' c'))

/-- R69, R71, R61, R64, R65, R66: words written out from the formats decode to what they stand for. That the LED
words stand for N255 ENCODEs and the bare code 0b10 for the RENDER of zero operands is the model's choice (logs 17, 18). -/
def Obligations.WrittenOutWordsDecode : Prop :=
  decodeTableWord 2 0b00 = some .nop ∧ decodeTableWord 2 0b01 = some .scan ∧
  decodeTableWord 2 0b10 = some (.render (Vector.replicate 25 0) ⟨0, 0, 0⟩) ∧ decodeTableWord 2 0b11 = some .reserved ∧
  decodeTableWord 32 0x33333300 = some (.encode (1 / 5) (1 / 5) (1 / 5)) ∧
  decodeTableWord 32 0xFF000000 = some (.encode 0 1 0) ∧
  decodeTableWord 4 0b0100 = some (.coldrive (onehot 2)) ∧ decodeTableWord 1 1 = some (.rowread true) ∧
  decodeTableWord 5 0b11110 = some (.keyresult true 3 2) ∧ decodeTableWord 5 0 = some (.keyresult false 0 0)

/-- The model's choice (log 10), over R72 and R64, which say only that these words are never produced: exactly they
are rejected, by name. -/
def Obligations.NeverProducedWordsAreRejected : Prop :=
  ∀ o : ChannelOrder,
    (∀ w : Word, decode o (.led w) = .error .ledLowByteNotZero ↔ w &&& 0xFF#32 ≠ 0#32) ∧
    (∀ v : BitVec 4, decode o (.col v) = .error .columnVectorNeverDriven ↔ v ≠ 0b0000#4 ∧ ∀ k, v ≠ onehot k) ∧
    (∀ k : BitVec 5, decode o (.key k) = .error .keyCodeNeverProduced ↔ k ≠ 0#5 ∧ k < 16#5)

/-- R68 (decision D13): under a `KEYMAP` with no 0x00 entry `key_sym` reads 0x00 exactly when no key is reported, and
otherwise the entry of the reported position. -/
def Obligations.KeySymbolZeroMeansNone : Prop :=
  ∀ s : State, s.params.wf = true →
    (s.keySym = 0x00#8 ↔ s.keyValid = false) ∧
    (s.keyValid = true → s.keySym = (s.params.keymap[s.keyRow])[s.keyCol])

/-- R53 (the spec marks it general knowledge): with exactly one key pressed the ideal matrix says `row_in[r] = col[c]`
for its row and 0 for every other. -/
def Obligations.IdealMatrixWithOneKey : Prop :=
  ∀ (r c : Index4) (col rowIn : BitVec 4),
    idealMatrix [(r, c)] col rowIn = true ↔
      ∀ r' : Index4, rowIn.getLsbD r'.val = (decide (r' = r) && col.getLsbD c.val)
end

