-- ==== Sys2Proof/Laws/Operands.lean ====
section
/-! SUPPORT. What the operand arithmetic gives: in-range intensities, words, columns, the
action table. -/

namespace Sys2Proof.Machine

/-- `inRange` as the two inequalities it stands for. -/
theorem inRange_iff (v : Intensity) : inRange v = true ↔ 0 ≤ v ∧ v ≤ 1 := by
  simp [inRange]

/-- The channel byte of an in-range intensity takes no draw. -/
theorem channelByte_of_inRange (n : Nat) (v : Intensity) (h : inRange v = true) :
    channelByte n v = (truncByte v, n) := by
  simp [channelByte, h]

/-- The channel byte of an out-of-range intensity is the next draw. -/
theorem channelByte_of_outOfRange (n : Nat) (v : Intensity) (h : inRange v = false) :
    channelByte n v = (Config.freeByte n, n + 1) := by
  simp [channelByte, h]

/-- The product of in-range factors is in range. -/
theorem inRange_mul (u v : Intensity) (hu : inRange u = true) (hv : inRange v = true) : inRange (u * v) = true := by
  rw [inRange_iff] at *
  exact ⟨mul_nonneg hu.1 hv.1, by nlinarith [hu.1, hu.2, hv.1, hv.2]⟩

/-- For a nonnegative value truncation is the floor. -/
theorem trunc_of_nonneg (q : Intensity) (h : 0 ≤ q) : trunc q = q.floor := by
  simp [trunc, h]

/-- A one-hot vector is not the zero vector, and is one of the legal ones. -/
theorem onehot_legal (k : Index4) : legalCols (onehot k) = true ∧ onehot k ≠ 0b0000#4 := by
  revert k
  decide

/-- The legal column vectors are the zero vector and the one-hot ones. -/
theorem legalCols_iff (v : BitVec 4) : legalCols v = true ↔ v = 0b0000#4 ∨ ∃ k, v = onehot k := by
  revert v
  decide

/-! ### Where the bytes of a word stand -/

/-- The four bytes of a concatenation. -/
theorem cat_bytes (x y z w : Byte) :
    (x ++ y ++ z ++ w).extractLsb' 24 8 = x ∧ (x ++ y ++ z ++ w).extractLsb' 16 8 = y ∧
    (x ++ y ++ z ++ w).extractLsb' 8 8 = z ∧ (x ++ y ++ z ++ w).extractLsb' 0 8 = w := by
  have h (i : Nat) : (x ++ y ++ z ++ w).getLsbD i =
      if i < 8 then w.getLsbD i else if i - 8 < 8 then z.getLsbD (i - 8) else
        if i - 8 - 8 < 8 then y.getLsbD (i - 8 - 8) else x.getLsbD (i - 8 - 8 - 8) := by
    erw [BitVec.getLsbD_append, BitVec.getLsbD_append, BitVec.getLsbD_append]
  refine ⟨?_, ?_, ?_, ?_⟩ <;> (ext i hi; simp only [BitVec.getElem_extractLsb', h]; interval_cases i <;> rfl)

/-- Under every channel order a packed word has its bytes at `redAt`, `greenAt`, `blueAt`, and the low byte below. -/
theorem packWord_bytes (o : ChannelOrder) (r g b : Byte) :
    (packWord o r g b).extractLsb' (redAt o) 8 = r ∧ (packWord o r g b).extractLsb' (greenAt o) 8 = g ∧
    (packWord o r g b).extractLsb' (blueAt o) 8 = b ∧ (packWord o r g b).extractLsb' 0 8 = lowByte := by
  cases o
  · exact have h := cat_bytes r g b lowByte; ⟨h.1, h.2.1, h.2.2.1, h.2.2.2⟩
  · exact have h := cat_bytes r b g lowByte; ⟨h.1, h.2.2.1, h.2.1, h.2.2.2⟩
  · exact have h := cat_bytes g r b lowByte; ⟨h.2.1, h.1, h.2.2.1, h.2.2.2⟩
  · exact have h := cat_bytes g b r lowByte; ⟨h.2.2.1, h.1, h.2.1, h.2.2.2⟩
  · exact have h := cat_bytes b r g lowByte; ⟨h.2.1, h.2.2.1, h.1, h.2.2.2⟩
  · exact have h := cat_bytes b g r lowByte; ⟨h.2.2.1, h.2.1, h.1, h.2.2.2⟩

/-! ### Bytes with their draws -/

/-- The byte of an in-range intensity is the floor of 255 times it. -/
theorem truncByte_of_inRange (v : Intensity) (h : inRange v = true) : truncByte v = BitVec.ofInt 8 (v * 255).floor := by
  rw [inRange_iff] at h
  rw [truncByte, trunc_of_nonneg _ (mul_nonneg h.1 (by norm_num))]

/-- Everything a channel byte can be: exact, or the next draw. -/
theorem channelByte_eq (n : Nat) (v : Intensity) :
    channelByte n v = (byteOrDraw (inRange v) v n, n + drawsOf (inRange v)) := by
  cases h : inRange v <;> simp [channelByte, h, byteOrDraw, drawsOf, truncByte_of_inRange]

/-- Everything a pixel's byte can be: exact, or the next draw. -/
theorem pixelByte_eq (n : Nat) (m v : Intensity) :
    pixelByte n m v =
      (byteOrDraw (inRange m && inRange v) (m * v) n, n + drawsOf (inRange m && inRange v)) := by
  cases h : inRange m && inRange v
  · simp [pixelByte, h, byteOrDraw, drawsOf]
  · obtain ⟨hm, hv⟩ := Bool.and_eq_true_iff.1 h
    simp [pixelByte, h, byteOrDraw, drawsOf, truncByte_of_inRange, inRange_mul m v hm hv]

/-- A pixel whose factors are in range is the ENCODE of its products. -/
theorem encodePixel_of_inRange (o : ChannelOrder) (n : Nat) (m : Intensity) (c : Color)
    (h : pixelInRange m c = true) :
    encodePixel o n m c = encodeWord o n (m * c.red) (m * c.green) (m * c.blue) := by
  simp only [pixelInRange, Bool.and_eq_true] at h
  obtain ⟨⟨⟨hm, hr⟩, hg⟩, hb⟩ := h
  simp [encodePixel, encodeWord, pixelByte, channelByte, hm, hr, hg, hb, inRange_mul]

/-! ### The action table -/

/-- The fixed entries, entry by entry. -/
theorem holdsFixedEntries_iff (table : ActionTable) : holdsFixedEntries table = true ↔
    (∃ cross red, table.lookup 0x31#8 = some (.play ⟨cross, red, 10⟩)) ∧
    table.lookup 0x42#8 = some (.fill ⟨0, 0, 1⟩) ∧
    table.lookup 0x23#8 = some (.fill ⟨mkRat 1 5, mkRat 1 5, mkRat 1 5⟩) := by
  simp only [holdsFixedEntries, Bool.and_eq_true, beq_iff_eq, and_assoc, Option.any_eq_true]
  refine and_congr_left fun _ => ⟨?_, ?_⟩
  · rintro ⟨a, ha, hp⟩
    cases a with
    | play a => exact ⟨a.masks, a.color, by rw [ha, ← eq_of_beq (hp : (a.fps == 10) = true)]⟩
    | fill _ => cases hp
    | off => cases hp
    | melody => cases hp
    | nothing => cases hp
  · rintro ⟨cross, red, h⟩
    exact ⟨_, h, rfl⟩

/-- The source's entries, with anything behind them, are a table that holds them. -/
theorem holdsFixedEntries_fixedEntries (cross : Vector Mask 5) (red : Color) (rest : ActionTable) :
    holdsFixedEntries (fixedEntries cross red ++ rest) = true :=
  (holdsFixedEntries_iff _).2 ⟨⟨cross, red, rfl⟩, rfl, rfl⟩

end Sys2Proof.Machine
end

