-- ==== Sys2Proof/Laws/State.lean ====
section
/-! SUPPORT. One lemma per field for each operation that updates the state unconditionally: later proofs rewrite with these
and never unfold a record update. -/

namespace Sys2Proof.Machine

/-! ### Logging an event -/

@[simp] theorem State.log_phase (s : State) (e : Event) : (s.log e).phase = s.phase := rfl
@[simp] theorem State.log_c (s : State) (e : Event) : (s.log e).c = s.c := rfl
@[simp] theorem State.log_r (s : State) (e : Event) : (s.log e).r = s.r := rfl
@[simp] theorem State.log_cnt (s : State) (e : Event) : (s.log e).cnt = s.cnt := rfl
@[simp] theorem State.log_i (s : State) (e : Event) : (s.log e).i = s.i := rfl
@[simp] theorem State.log_col (s : State) (e : Event) : (s.log e).col = s.col := rfl
@[simp] theorem State.log_keyValid (s : State) (e : Event) : (s.log e).keyValid = s.keyValid := rfl
@[simp] theorem State.log_keyRow (s : State) (e : Event) : (s.log e).keyRow = s.keyRow := rfl
@[simp] theorem State.log_keyCol (s : State) (e : Event) : (s.log e).keyCol = s.keyCol := rfl
@[simp] theorem State.log_done (s : State) (e : Event) : (s.log e).done = s.done := rfl
@[simp] theorem State.log_ledWord (s : State) (e : Event) : (s.log e).ledWord = s.ledWord := rfl
@[simp] theorem State.log_ledValid (s : State) (e : Event) : (s.log e).ledValid = s.ledValid := rfl
@[simp] theorem State.log_mask (s : State) (e : Event) : (s.log e).mask = s.mask := rfl
@[simp] theorem State.log_color (s : State) (e : Event) : (s.log e).color = s.color := rfl
@[simp] theorem State.log_params (s : State) (e : Event) : (s.log e).params = s.params := rfl
@[simp] theorem State.log_hostMode (s : State) (e : Event) : (s.log e).hostMode = s.hostMode := rfl
@[simp] theorem State.log_hostKey (s : State) (e : Event) : (s.log e).hostKey = s.hostKey := rfl
@[simp] theorem State.log_program (s : State) (e : Event) : (s.log e).program = s.program := rfl
@[simp] theorem State.log_sleep (s : State) (e : Event) : (s.log e).sleep = s.sleep := rfl
@[simp] theorem State.log_inputs (s : State) (e : Event) : (s.log e).inputs = s.inputs := rfl
@[simp] theorem State.log_tick (s : State) (e : Event) : (s.log e).tick = s.tick := rfl
@[simp] theorem State.log_draws (s : State) (e : Event) : (s.log e).draws = s.draws := rfl
@[simp] theorem State.log_events (s : State) (e : Event) : (s.log e).events = s.events ++ [e] := rfl

/-! ### Putting operations in front of the host's program -/

@[simp] theorem State.push_phase (s : State) (ops : List HostOp) : (s.push ops).phase = s.phase := rfl
@[simp] theorem State.push_c (s : State) (ops : List HostOp) : (s.push ops).c = s.c := rfl
@[simp] theorem State.push_r (s : State) (ops : List HostOp) : (s.push ops).r = s.r := rfl
@[simp] theorem State.push_cnt (s : State) (ops : List HostOp) : (s.push ops).cnt = s.cnt := rfl
@[simp] theorem State.push_i (s : State) (ops : List HostOp) : (s.push ops).i = s.i := rfl
@[simp] theorem State.push_col (s : State) (ops : List HostOp) : (s.push ops).col = s.col := rfl
@[simp] theorem State.push_keyValid (s : State) (ops : List HostOp) : (s.push ops).keyValid = s.keyValid := rfl
@[simp] theorem State.push_keyRow (s : State) (ops : List HostOp) : (s.push ops).keyRow = s.keyRow := rfl
@[simp] theorem State.push_keyCol (s : State) (ops : List HostOp) : (s.push ops).keyCol = s.keyCol := rfl
@[simp] theorem State.push_done (s : State) (ops : List HostOp) : (s.push ops).done = s.done := rfl
@[simp] theorem State.push_ledWord (s : State) (ops : List HostOp) : (s.push ops).ledWord = s.ledWord := rfl
@[simp] theorem State.push_ledValid (s : State) (ops : List HostOp) : (s.push ops).ledValid = s.ledValid := rfl
@[simp] theorem State.push_mask (s : State) (ops : List HostOp) : (s.push ops).mask = s.mask := rfl
@[simp] theorem State.push_color (s : State) (ops : List HostOp) : (s.push ops).color = s.color := rfl
@[simp] theorem State.push_params (s : State) (ops : List HostOp) : (s.push ops).params = s.params := rfl
@[simp] theorem State.push_hostMode (s : State) (ops : List HostOp) : (s.push ops).hostMode = s.hostMode := rfl
@[simp] theorem State.push_hostKey (s : State) (ops : List HostOp) : (s.push ops).hostKey = s.hostKey := rfl
@[simp] theorem State.push_program (s : State) (ops : List HostOp) : (s.push ops).program = ops ++ s.program := rfl
@[simp] theorem State.push_sleep (s : State) (ops : List HostOp) : (s.push ops).sleep = s.sleep := rfl
@[simp] theorem State.push_inputs (s : State) (ops : List HostOp) : (s.push ops).inputs = s.inputs := rfl
@[simp] theorem State.push_tick (s : State) (ops : List HostOp) : (s.push ops).tick = s.tick := rfl
@[simp] theorem State.push_draws (s : State) (ops : List HostOp) : (s.push ops).draws = s.draws := rfl
@[simp] theorem State.push_events (s : State) (ops : List HostOp) : (s.push ops).events = s.events := rfl

/-! ### A falling done -/

@[simp] theorem State.clearDone_phase (s : State) : (s.clearDone).phase = s.phase := rfl
@[simp] theorem State.clearDone_c (s : State) : (s.clearDone).c = s.c := rfl
@[simp] theorem State.clearDone_r (s : State) : (s.clearDone).r = s.r := rfl
@[simp] theorem State.clearDone_cnt (s : State) : (s.clearDone).cnt = s.cnt := rfl
@[simp] theorem State.clearDone_i (s : State) : (s.clearDone).i = s.i := rfl
@[simp] theorem State.clearDone_col (s : State) : (s.clearDone).col = s.col := rfl
@[simp] theorem State.clearDone_keyValid (s : State) : (s.clearDone).keyValid = s.keyValid := rfl
@[simp] theorem State.clearDone_keyRow (s : State) : (s.clearDone).keyRow = s.keyRow := rfl
@[simp] theorem State.clearDone_keyCol (s : State) : (s.clearDone).keyCol = s.keyCol := rfl
@[simp] theorem State.clearDone_done (s : State) : (s.clearDone).done = false := rfl
@[simp] theorem State.clearDone_ledWord (s : State) : (s.clearDone).ledWord = s.ledWord := rfl
@[simp] theorem State.clearDone_ledValid (s : State) : (s.clearDone).ledValid = s.ledValid := rfl
@[simp] theorem State.clearDone_mask (s : State) : (s.clearDone).mask = s.mask := rfl
@[simp] theorem State.clearDone_color (s : State) : (s.clearDone).color = s.color := rfl
@[simp] theorem State.clearDone_params (s : State) : (s.clearDone).params = s.params := rfl
@[simp] theorem State.clearDone_hostMode (s : State) : (s.clearDone).hostMode = s.hostMode := rfl
@[simp] theorem State.clearDone_hostKey (s : State) : (s.clearDone).hostKey = s.hostKey := rfl
@[simp] theorem State.clearDone_program (s : State) : (s.clearDone).program = s.program := rfl
@[simp] theorem State.clearDone_sleep (s : State) : (s.clearDone).sleep = s.sleep := rfl
@[simp] theorem State.clearDone_inputs (s : State) : (s.clearDone).inputs = s.inputs := rfl
@[simp] theorem State.clearDone_tick (s : State) : (s.clearDone).tick = s.tick := rfl
@[simp] theorem State.clearDone_draws (s : State) : (s.clearDone).draws = s.draws := rfl
@[simp] theorem State.clearDone_events (s : State) : (s.clearDone).events = s.events := rfl

/-! ### The host's program -/

@[simp] theorem State.setProgram_phase (s : State) (ops : List HostOp) : (s.setProgram ops).phase = s.phase := rfl
@[simp] theorem State.setProgram_c (s : State) (ops : List HostOp) : (s.setProgram ops).c = s.c := rfl
@[simp] theorem State.setProgram_r (s : State) (ops : List HostOp) : (s.setProgram ops).r = s.r := rfl
@[simp] theorem State.setProgram_cnt (s : State) (ops : List HostOp) : (s.setProgram ops).cnt = s.cnt := rfl
@[simp] theorem State.setProgram_i (s : State) (ops : List HostOp) : (s.setProgram ops).i = s.i := rfl
@[simp] theorem State.setProgram_col (s : State) (ops : List HostOp) : (s.setProgram ops).col = s.col := rfl
@[simp] theorem State.setProgram_keyValid (s : State) (ops : List HostOp) : (s.setProgram ops).keyValid = s.keyValid := rfl
@[simp] theorem State.setProgram_keyRow (s : State) (ops : List HostOp) : (s.setProgram ops).keyRow = s.keyRow := rfl
@[simp] theorem State.setProgram_keyCol (s : State) (ops : List HostOp) : (s.setProgram ops).keyCol = s.keyCol := rfl
@[simp] theorem State.setProgram_done (s : State) (ops : List HostOp) : (s.setProgram ops).done = s.done := rfl
@[simp] theorem State.setProgram_ledWord (s : State) (ops : List HostOp) : (s.setProgram ops).ledWord = s.ledWord := rfl
@[simp] theorem State.setProgram_ledValid (s : State) (ops : List HostOp) : (s.setProgram ops).ledValid = s.ledValid := rfl
@[simp] theorem State.setProgram_mask (s : State) (ops : List HostOp) : (s.setProgram ops).mask = s.mask := rfl
@[simp] theorem State.setProgram_color (s : State) (ops : List HostOp) : (s.setProgram ops).color = s.color := rfl
@[simp] theorem State.setProgram_params (s : State) (ops : List HostOp) : (s.setProgram ops).params = s.params := rfl
@[simp] theorem State.setProgram_hostMode (s : State) (ops : List HostOp) : (s.setProgram ops).hostMode = s.hostMode := rfl
@[simp] theorem State.setProgram_hostKey (s : State) (ops : List HostOp) : (s.setProgram ops).hostKey = s.hostKey := rfl
@[simp] theorem State.setProgram_program (s : State) (ops : List HostOp) : (s.setProgram ops).program = ops := rfl
@[simp] theorem State.setProgram_sleep (s : State) (ops : List HostOp) : (s.setProgram ops).sleep = s.sleep := rfl
@[simp] theorem State.setProgram_inputs (s : State) (ops : List HostOp) : (s.setProgram ops).inputs = s.inputs := rfl
@[simp] theorem State.setProgram_tick (s : State) (ops : List HostOp) : (s.setProgram ops).tick = s.tick := rfl
@[simp] theorem State.setProgram_draws (s : State) (ops : List HostOp) : (s.setProgram ops).draws = s.draws := rfl
@[simp] theorem State.setProgram_events (s : State) (ops : List HostOp) : (s.setProgram ops).events = s.events := rfl

/-! ### The host's pause -/

@[simp] theorem State.setSleep_phase (s : State) (n : Nat) : (s.setSleep n).phase = s.phase := rfl
@[simp] theorem State.setSleep_c (s : State) (n : Nat) : (s.setSleep n).c = s.c := rfl
@[simp] theorem State.setSleep_r (s : State) (n : Nat) : (s.setSleep n).r = s.r := rfl
@[simp] theorem State.setSleep_cnt (s : State) (n : Nat) : (s.setSleep n).cnt = s.cnt := rfl
@[simp] theorem State.setSleep_i (s : State) (n : Nat) : (s.setSleep n).i = s.i := rfl
@[simp] theorem State.setSleep_col (s : State) (n : Nat) : (s.setSleep n).col = s.col := rfl
@[simp] theorem State.setSleep_keyValid (s : State) (n : Nat) : (s.setSleep n).keyValid = s.keyValid := rfl
@[simp] theorem State.setSleep_keyRow (s : State) (n : Nat) : (s.setSleep n).keyRow = s.keyRow := rfl
@[simp] theorem State.setSleep_keyCol (s : State) (n : Nat) : (s.setSleep n).keyCol = s.keyCol := rfl
@[simp] theorem State.setSleep_done (s : State) (n : Nat) : (s.setSleep n).done = s.done := rfl
@[simp] theorem State.setSleep_ledWord (s : State) (n : Nat) : (s.setSleep n).ledWord = s.ledWord := rfl
@[simp] theorem State.setSleep_ledValid (s : State) (n : Nat) : (s.setSleep n).ledValid = s.ledValid := rfl
@[simp] theorem State.setSleep_mask (s : State) (n : Nat) : (s.setSleep n).mask = s.mask := rfl
@[simp] theorem State.setSleep_color (s : State) (n : Nat) : (s.setSleep n).color = s.color := rfl
@[simp] theorem State.setSleep_params (s : State) (n : Nat) : (s.setSleep n).params = s.params := rfl
@[simp] theorem State.setSleep_hostMode (s : State) (n : Nat) : (s.setSleep n).hostMode = s.hostMode := rfl
@[simp] theorem State.setSleep_hostKey (s : State) (n : Nat) : (s.setSleep n).hostKey = s.hostKey := rfl
@[simp] theorem State.setSleep_program (s : State) (n : Nat) : (s.setSleep n).program = s.program := rfl
@[simp] theorem State.setSleep_sleep (s : State) (n : Nat) : (s.setSleep n).sleep = n := rfl
@[simp] theorem State.setSleep_inputs (s : State) (n : Nat) : (s.setSleep n).inputs = s.inputs := rfl
@[simp] theorem State.setSleep_tick (s : State) (n : Nat) : (s.setSleep n).tick = s.tick := rfl
@[simp] theorem State.setSleep_draws (s : State) (n : Nat) : (s.setSleep n).draws = s.draws := rfl
@[simp] theorem State.setSleep_events (s : State) (n : Nat) : (s.setSleep n).events = s.events := rfl

/-! ### The host's variable and state -/

@[simp] theorem State.setHost_phase (s : State) (k : Option Byte) (m : HostMode) : (s.setHost k m).phase = s.phase := rfl
@[simp] theorem State.setHost_c (s : State) (k : Option Byte) (m : HostMode) : (s.setHost k m).c = s.c := rfl
@[simp] theorem State.setHost_r (s : State) (k : Option Byte) (m : HostMode) : (s.setHost k m).r = s.r := rfl
@[simp] theorem State.setHost_cnt (s : State) (k : Option Byte) (m : HostMode) : (s.setHost k m).cnt = s.cnt := rfl
@[simp] theorem State.setHost_i (s : State) (k : Option Byte) (m : HostMode) : (s.setHost k m).i = s.i := rfl
@[simp] theorem State.setHost_col (s : State) (k : Option Byte) (m : HostMode) : (s.setHost k m).col = s.col := rfl
@[simp] theorem State.setHost_keyValid (s : State) (k : Option Byte) (m : HostMode) : (s.setHost k m).keyValid = s.keyValid := rfl
@[simp] theorem State.setHost_keyRow (s : State) (k : Option Byte) (m : HostMode) : (s.setHost k m).keyRow = s.keyRow := rfl
@[simp] theorem State.setHost_keyCol (s : State) (k : Option Byte) (m : HostMode) : (s.setHost k m).keyCol = s.keyCol := rfl
@[simp] theorem State.setHost_done (s : State) (k : Option Byte) (m : HostMode) : (s.setHost k m).done = s.done := rfl
@[simp] theorem State.setHost_ledWord (s : State) (k : Option Byte) (m : HostMode) : (s.setHost k m).ledWord = s.ledWord := rfl
@[simp] theorem State.setHost_ledValid (s : State) (k : Option Byte) (m : HostMode) : (s.setHost k m).ledValid = s.ledValid := rfl
@[simp] theorem State.setHost_mask (s : State) (k : Option Byte) (m : HostMode) : (s.setHost k m).mask = s.mask := rfl
@[simp] theorem State.setHost_color (s : State) (k : Option Byte) (m : HostMode) : (s.setHost k m).color = s.color := rfl
@[simp] theorem State.setHost_params (s : State) (k : Option Byte) (m : HostMode) : (s.setHost k m).params = s.params := rfl
@[simp] theorem State.setHost_hostMode (s : State) (k : Option Byte) (m : HostMode) : (s.setHost k m).hostMode = m := rfl
@[simp] theorem State.setHost_hostKey (s : State) (k : Option Byte) (m : HostMode) : (s.setHost k m).hostKey = k := rfl
@[simp] theorem State.setHost_program (s : State) (k : Option Byte) (m : HostMode) : (s.setHost k m).program = s.program := rfl
@[simp] theorem State.setHost_sleep (s : State) (k : Option Byte) (m : HostMode) : (s.setHost k m).sleep = s.sleep := rfl
@[simp] theorem State.setHost_inputs (s : State) (k : Option Byte) (m : HostMode) : (s.setHost k m).inputs = s.inputs := rfl
@[simp] theorem State.setHost_tick (s : State) (k : Option Byte) (m : HostMode) : (s.setHost k m).tick = s.tick := rfl
@[simp] theorem State.setHost_draws (s : State) (k : Option Byte) (m : HostMode) : (s.setHost k m).draws = s.draws := rfl
@[simp] theorem State.setHost_events (s : State) (k : Option Byte) (m : HostMode) : (s.setHost k m).events = s.events := rfl

/-! ### Accepting a SCAN -/

@[simp] theorem acceptScan_phase (s : State) : (acceptScan s).phase = .kDrive := rfl
@[simp] theorem acceptScan_c (s : State) : (acceptScan s).c = 0 := rfl
@[simp] theorem acceptScan_r (s : State) : (acceptScan s).r = 0 := rfl
@[simp] theorem acceptScan_cnt (s : State) : (acceptScan s).cnt = s.params.settleTicks := rfl
@[simp] theorem acceptScan_i (s : State) : (acceptScan s).i = s.i := rfl
@[simp] theorem acceptScan_col (s : State) : (acceptScan s).col = s.col := rfl
@[simp] theorem acceptScan_keyValid (s : State) : (acceptScan s).keyValid = s.keyValid := rfl
@[simp] theorem acceptScan_keyRow (s : State) : (acceptScan s).keyRow = s.keyRow := rfl
@[simp] theorem acceptScan_keyCol (s : State) : (acceptScan s).keyCol = s.keyCol := rfl
@[simp] theorem acceptScan_done (s : State) : (acceptScan s).done = s.done := rfl
@[simp] theorem acceptScan_ledWord (s : State) : (acceptScan s).ledWord = s.ledWord := rfl
@[simp] theorem acceptScan_ledValid (s : State) : (acceptScan s).ledValid = s.ledValid := rfl
@[simp] theorem acceptScan_mask (s : State) : (acceptScan s).mask = s.mask := rfl
@[simp] theorem acceptScan_color (s : State) : (acceptScan s).color = s.color := rfl
@[simp] theorem acceptScan_params (s : State) : (acceptScan s).params = s.params := rfl
@[simp] theorem acceptScan_hostMode (s : State) : (acceptScan s).hostMode = s.hostMode := rfl
@[simp] theorem acceptScan_hostKey (s : State) : (acceptScan s).hostKey = s.hostKey := rfl
@[simp] theorem acceptScan_program (s : State) : (acceptScan s).program = s.program := rfl
@[simp] theorem acceptScan_sleep (s : State) : (acceptScan s).sleep = s.sleep := rfl
@[simp] theorem acceptScan_inputs (s : State) : (acceptScan s).inputs = s.inputs := rfl
@[simp] theorem acceptScan_tick (s : State) : (acceptScan s).tick = s.tick := rfl
@[simp] theorem acceptScan_draws (s : State) : (acceptScan s).draws = s.draws := rfl
@[simp] theorem acceptScan_events (s : State) : (acceptScan s).events = s.events := rfl

/-! ### Accepting a RENDER -/

@[simp] theorem acceptRender_phase (m : Mask) (k : Color) (s : State) : (acceptRender m k s).phase = .lLoad := rfl
@[simp] theorem acceptRender_c (m : Mask) (k : Color) (s : State) : (acceptRender m k s).c = s.c := rfl
@[simp] theorem acceptRender_r (m : Mask) (k : Color) (s : State) : (acceptRender m k s).r = s.r := rfl
@[simp] theorem acceptRender_cnt (m : Mask) (k : Color) (s : State) : (acceptRender m k s).cnt = s.cnt := rfl
@[simp] theorem acceptRender_i (m : Mask) (k : Color) (s : State) : (acceptRender m k s).i = 0 := rfl
@[simp] theorem acceptRender_col (m : Mask) (k : Color) (s : State) : (acceptRender m k s).col = s.col := rfl
@[simp] theorem acceptRender_keyValid (m : Mask) (k : Color) (s : State) : (acceptRender m k s).keyValid = s.keyValid := rfl
@[simp] theorem acceptRender_keyRow (m : Mask) (k : Color) (s : State) : (acceptRender m k s).keyRow = s.keyRow := rfl
@[simp] theorem acceptRender_keyCol (m : Mask) (k : Color) (s : State) : (acceptRender m k s).keyCol = s.keyCol := rfl
@[simp] theorem acceptRender_done (m : Mask) (k : Color) (s : State) : (acceptRender m k s).done = s.done := rfl
@[simp] theorem acceptRender_ledWord (m : Mask) (k : Color) (s : State) : (acceptRender m k s).ledWord = s.ledWord := rfl
@[simp] theorem acceptRender_ledValid (m : Mask) (k : Color) (s : State) : (acceptRender m k s).ledValid = s.ledValid := rfl
@[simp] theorem acceptRender_mask (m : Mask) (k : Color) (s : State) : (acceptRender m k s).mask = m := rfl
@[simp] theorem acceptRender_color (m : Mask) (k : Color) (s : State) : (acceptRender m k s).color = k := rfl
@[simp] theorem acceptRender_params (m : Mask) (k : Color) (s : State) : (acceptRender m k s).params = s.params := rfl
@[simp] theorem acceptRender_hostMode (m : Mask) (k : Color) (s : State) : (acceptRender m k s).hostMode = s.hostMode := rfl
@[simp] theorem acceptRender_hostKey (m : Mask) (k : Color) (s : State) : (acceptRender m k s).hostKey = s.hostKey := rfl
@[simp] theorem acceptRender_program (m : Mask) (k : Color) (s : State) : (acceptRender m k s).program = s.program := rfl
@[simp] theorem acceptRender_sleep (m : Mask) (k : Color) (s : State) : (acceptRender m k s).sleep = s.sleep := rfl
@[simp] theorem acceptRender_inputs (m : Mask) (k : Color) (s : State) : (acceptRender m k s).inputs = s.inputs := rfl
@[simp] theorem acceptRender_tick (m : Mask) (k : Color) (s : State) : (acceptRender m k s).tick = s.tick := rfl
@[simp] theorem acceptRender_draws (m : Mask) (k : Color) (s : State) : (acceptRender m k s).draws = s.draws := rfl
@[simp] theorem acceptRender_events (m : Mask) (k : Color) (s : State) : (acceptRender m k s).events = s.events := rfl

/-! ### Delivering a result -/

@[simp] theorem deliverKey_phase (v : Bool) (a b : Index4) (s : State) : (deliverKey v a b s).phase = .idle := rfl
@[simp] theorem deliverKey_c (v : Bool) (a b : Index4) (s : State) : (deliverKey v a b s).c = s.c := rfl
@[simp] theorem deliverKey_r (v : Bool) (a b : Index4) (s : State) : (deliverKey v a b s).r = s.r := rfl
@[simp] theorem deliverKey_cnt (v : Bool) (a b : Index4) (s : State) : (deliverKey v a b s).cnt = s.cnt := rfl
@[simp] theorem deliverKey_i (v : Bool) (a b : Index4) (s : State) : (deliverKey v a b s).i = s.i := rfl
@[simp] theorem deliverKey_col (v : Bool) (a b : Index4) (s : State) : (deliverKey v a b s).col = 0b0000#4 := rfl
@[simp] theorem deliverKey_keyValid (v : Bool) (a b : Index4) (s : State) : (deliverKey v a b s).keyValid = v := rfl
@[simp] theorem deliverKey_keyRow (v : Bool) (a b : Index4) (s : State) : (deliverKey v a b s).keyRow = a := rfl
@[simp] theorem deliverKey_keyCol (v : Bool) (a b : Index4) (s : State) : (deliverKey v a b s).keyCol = b := rfl
@[simp] theorem deliverKey_done (v : Bool) (a b : Index4) (s : State) : (deliverKey v a b s).done = true := rfl
@[simp] theorem deliverKey_ledWord (v : Bool) (a b : Index4) (s : State) : (deliverKey v a b s).ledWord = s.ledWord := rfl
@[simp] theorem deliverKey_ledValid (v : Bool) (a b : Index4) (s : State) : (deliverKey v a b s).ledValid = s.ledValid := rfl
@[simp] theorem deliverKey_mask (v : Bool) (a b : Index4) (s : State) : (deliverKey v a b s).mask = s.mask := rfl
@[simp] theorem deliverKey_color (v : Bool) (a b : Index4) (s : State) : (deliverKey v a b s).color = s.color := rfl
@[simp] theorem deliverKey_params (v : Bool) (a b : Index4) (s : State) : (deliverKey v a b s).params = s.params := rfl
@[simp] theorem deliverKey_hostMode (v : Bool) (a b : Index4) (s : State) : (deliverKey v a b s).hostMode = s.hostMode := rfl
@[simp] theorem deliverKey_hostKey (v : Bool) (a b : Index4) (s : State) : (deliverKey v a b s).hostKey = s.hostKey := rfl
@[simp] theorem deliverKey_program (v : Bool) (a b : Index4) (s : State) : (deliverKey v a b s).program = s.program := rfl
@[simp] theorem deliverKey_sleep (v : Bool) (a b : Index4) (s : State) : (deliverKey v a b s).sleep = s.sleep := rfl
@[simp] theorem deliverKey_inputs (v : Bool) (a b : Index4) (s : State) : (deliverKey v a b s).inputs = s.inputs := rfl
@[simp] theorem deliverKey_tick (v : Bool) (a b : Index4) (s : State) : (deliverKey v a b s).tick = s.tick := rfl
@[simp] theorem deliverKey_draws (v : Bool) (a b : Index4) (s : State) : (deliverKey v a b s).draws = s.draws := rfl
@[simp] theorem deliverKey_events (v : Bool) (a b : Index4) (s : State) : (deliverKey v a b s).events = s.events := rfl

/-! ### Offering a word -/

@[simp] theorem offerWord_phase (w : Word × Nat) (s : State) : (offerWord w s).phase = .lPush := rfl
@[simp] theorem offerWord_c (w : Word × Nat) (s : State) : (offerWord w s).c = s.c := rfl
@[simp] theorem offerWord_r (w : Word × Nat) (s : State) : (offerWord w s).r = s.r := rfl
@[simp] theorem offerWord_cnt (w : Word × Nat) (s : State) : (offerWord w s).cnt = s.cnt := rfl
@[simp] theorem offerWord_i (w : Word × Nat) (s : State) : (offerWord w s).i = s.i := rfl
@[simp] theorem offerWord_col (w : Word × Nat) (s : State) : (offerWord w s).col = s.col := rfl
@[simp] theorem offerWord_keyValid (w : Word × Nat) (s : State) : (offerWord w s).keyValid = s.keyValid := rfl
@[simp] theorem offerWord_keyRow (w : Word × Nat) (s : State) : (offerWord w s).keyRow = s.keyRow := rfl
@[simp] theorem offerWord_keyCol (w : Word × Nat) (s : State) : (offerWord w s).keyCol = s.keyCol := rfl
@[simp] theorem offerWord_done (w : Word × Nat) (s : State) : (offerWord w s).done = s.done := rfl
@[simp] theorem offerWord_ledWord (w : Word × Nat) (s : State) : (offerWord w s).ledWord = w.1 := rfl
@[simp] theorem offerWord_ledValid (w : Word × Nat) (s : State) : (offerWord w s).ledValid = true := rfl
@[simp] theorem offerWord_mask (w : Word × Nat) (s : State) : (offerWord w s).mask = s.mask := rfl
@[simp] theorem offerWord_color (w : Word × Nat) (s : State) : (offerWord w s).color = s.color := rfl
@[simp] theorem offerWord_params (w : Word × Nat) (s : State) : (offerWord w s).params = s.params := rfl
@[simp] theorem offerWord_hostMode (w : Word × Nat) (s : State) : (offerWord w s).hostMode = s.hostMode := rfl
@[simp] theorem offerWord_hostKey (w : Word × Nat) (s : State) : (offerWord w s).hostKey = s.hostKey := rfl
@[simp] theorem offerWord_program (w : Word × Nat) (s : State) : (offerWord w s).program = s.program := rfl
@[simp] theorem offerWord_sleep (w : Word × Nat) (s : State) : (offerWord w s).sleep = s.sleep := rfl
@[simp] theorem offerWord_inputs (w : Word × Nat) (s : State) : (offerWord w s).inputs = s.inputs := rfl
@[simp] theorem offerWord_tick (w : Word × Nat) (s : State) : (offerWord w s).tick = s.tick := rfl
@[simp] theorem offerWord_draws (w : Word × Nat) (s : State) : (offerWord w s).draws = w.2 := rfl
@[simp] theorem offerWord_events (w : Word × Nat) (s : State) : (offerWord w s).events = s.events := rfl

/-! ### The bookkeeping of a tick -/

@[simp] theorem endTick_phase (s t : State) : (endTick s t).phase = t.phase := rfl
@[simp] theorem endTick_c (s t : State) : (endTick s t).c = t.c := rfl
@[simp] theorem endTick_r (s t : State) : (endTick s t).r = t.r := rfl
@[simp] theorem endTick_cnt (s t : State) : (endTick s t).cnt = t.cnt := rfl
@[simp] theorem endTick_i (s t : State) : (endTick s t).i = t.i := rfl
@[simp] theorem endTick_col (s t : State) : (endTick s t).col = t.col := rfl
@[simp] theorem endTick_keyValid (s t : State) : (endTick s t).keyValid = t.keyValid := rfl
@[simp] theorem endTick_keyRow (s t : State) : (endTick s t).keyRow = t.keyRow := rfl
@[simp] theorem endTick_keyCol (s t : State) : (endTick s t).keyCol = t.keyCol := rfl
@[simp] theorem endTick_done (s t : State) : (endTick s t).done = t.done := rfl
@[simp] theorem endTick_ledWord (s t : State) : (endTick s t).ledWord = t.ledWord := rfl
@[simp] theorem endTick_ledValid (s t : State) : (endTick s t).ledValid = t.ledValid := rfl
@[simp] theorem endTick_mask (s t : State) : (endTick s t).mask = t.mask := rfl
@[simp] theorem endTick_color (s t : State) : (endTick s t).color = t.color := rfl
@[simp] theorem endTick_params (s t : State) : (endTick s t).params = t.params := rfl
@[simp] theorem endTick_hostMode (s t : State) : (endTick s t).hostMode = t.hostMode := rfl
@[simp] theorem endTick_hostKey (s t : State) : (endTick s t).hostKey = t.hostKey := rfl
@[simp] theorem endTick_program (s t : State) : (endTick s t).program = t.program := rfl
@[simp] theorem endTick_sleep (s t : State) : (endTick s t).sleep = t.sleep - 1 := rfl
@[simp] theorem endTick_inputs (s t : State) : (endTick s t).inputs = s.inputs.tail := rfl
@[simp] theorem endTick_tick (s t : State) : (endTick s t).tick = s.tick + 1 := rfl
@[simp] theorem endTick_draws (s t : State) : (endTick s t).draws = t.draws := rfl
@[simp] theorem endTick_events (s t : State) : (endTick s t).events = t.events ++ wireEvents s t := rfl

/-! ### A tick that changes only the bookkeeping -/

@[simp] theorem State.afterTick_phase (s : State) (evs : List Event) : (s.afterTick evs).phase = s.phase := rfl
@[simp] theorem State.afterTick_c (s : State) (evs : List Event) : (s.afterTick evs).c = s.c := rfl
@[simp] theorem State.afterTick_r (s : State) (evs : List Event) : (s.afterTick evs).r = s.r := rfl
@[simp] theorem State.afterTick_cnt (s : State) (evs : List Event) : (s.afterTick evs).cnt = s.cnt := rfl
@[simp] theorem State.afterTick_i (s : State) (evs : List Event) : (s.afterTick evs).i = s.i := rfl
@[simp] theorem State.afterTick_col (s : State) (evs : List Event) : (s.afterTick evs).col = s.col := rfl
@[simp] theorem State.afterTick_keyValid (s : State) (evs : List Event) : (s.afterTick evs).keyValid = s.keyValid := rfl
@[simp] theorem State.afterTick_keyRow (s : State) (evs : List Event) : (s.afterTick evs).keyRow = s.keyRow := rfl
@[simp] theorem State.afterTick_keyCol (s : State) (evs : List Event) : (s.afterTick evs).keyCol = s.keyCol := rfl
@[simp] theorem State.afterTick_done (s : State) (evs : List Event) : (s.afterTick evs).done = s.done := rfl
@[simp] theorem State.afterTick_ledWord (s : State) (evs : List Event) : (s.afterTick evs).ledWord = s.ledWord := rfl
@[simp] theorem State.afterTick_ledValid (s : State) (evs : List Event) : (s.afterTick evs).ledValid = s.ledValid := rfl
@[simp] theorem State.afterTick_mask (s : State) (evs : List Event) : (s.afterTick evs).mask = s.mask := rfl
@[simp] theorem State.afterTick_color (s : State) (evs : List Event) : (s.afterTick evs).color = s.color := rfl
@[simp] theorem State.afterTick_params (s : State) (evs : List Event) : (s.afterTick evs).params = s.params := rfl
@[simp] theorem State.afterTick_hostMode (s : State) (evs : List Event) : (s.afterTick evs).hostMode = s.hostMode := rfl
@[simp] theorem State.afterTick_hostKey (s : State) (evs : List Event) : (s.afterTick evs).hostKey = s.hostKey := rfl
@[simp] theorem State.afterTick_program (s : State) (evs : List Event) : (s.afterTick evs).program = s.program := rfl
@[simp] theorem State.afterTick_sleep (s : State) (evs : List Event) : (s.afterTick evs).sleep = s.sleep - 1 := rfl
@[simp] theorem State.afterTick_inputs (s : State) (evs : List Event) : (s.afterTick evs).inputs = s.inputs.tail := rfl
@[simp] theorem State.afterTick_tick (s : State) (evs : List Event) : (s.afterTick evs).tick = s.tick + 1 := rfl
@[simp] theorem State.afterTick_draws (s : State) (evs : List Event) : (s.afterTick evs).draws = s.draws := rfl
@[simp] theorem State.afterTick_events (s : State) (evs : List Event) : (s.afterTick evs).events = s.events ++ evs := rfl

/-! ### The melody -/

@[simp] theorem playMelody_phase (s : State) : (playMelody s).phase = s.phase := rfl
@[simp] theorem playMelody_c (s : State) : (playMelody s).c = s.c := rfl
@[simp] theorem playMelody_r (s : State) : (playMelody s).r = s.r := rfl
@[simp] theorem playMelody_cnt (s : State) : (playMelody s).cnt = s.cnt := rfl
@[simp] theorem playMelody_i (s : State) : (playMelody s).i = s.i := rfl
@[simp] theorem playMelody_col (s : State) : (playMelody s).col = s.col := rfl
@[simp] theorem playMelody_keyValid (s : State) : (playMelody s).keyValid = s.keyValid := rfl
@[simp] theorem playMelody_keyRow (s : State) : (playMelody s).keyRow = s.keyRow := rfl
@[simp] theorem playMelody_keyCol (s : State) : (playMelody s).keyCol = s.keyCol := rfl
@[simp] theorem playMelody_done (s : State) : (playMelody s).done = s.done := rfl
@[simp] theorem playMelody_ledWord (s : State) : (playMelody s).ledWord = s.ledWord := rfl
@[simp] theorem playMelody_ledValid (s : State) : (playMelody s).ledValid = s.ledValid := rfl
@[simp] theorem playMelody_mask (s : State) : (playMelody s).mask = s.mask := rfl
@[simp] theorem playMelody_color (s : State) : (playMelody s).color = s.color := rfl
@[simp] theorem playMelody_params (s : State) : (playMelody s).params = s.params := rfl
@[simp] theorem playMelody_hostMode (s : State) : (playMelody s).hostMode = s.hostMode := rfl
@[simp] theorem playMelody_hostKey (s : State) : (playMelody s).hostKey = s.hostKey := rfl
@[simp] theorem playMelody_program (s : State) : (playMelody s).program = s.program := rfl
@[simp] theorem playMelody_sleep (s : State) : (playMelody s).sleep = Config.freeMelody s.draws := rfl
@[simp] theorem playMelody_inputs (s : State) : (playMelody s).inputs = s.inputs := rfl
@[simp] theorem playMelody_tick (s : State) : (playMelody s).tick = s.tick := rfl
@[simp] theorem playMelody_draws (s : State) : (playMelody s).draws = s.draws + 1 := rfl
@[simp] theorem playMelody_events (s : State) : (playMelody s).events = s.events := rfl

/-! ### Reset of the block -/

@[simp] theorem State.resetBlock_phase (s : State) : (s.resetBlock).phase = .idle := rfl
@[simp] theorem State.resetBlock_c (s : State) : (s.resetBlock).c = 0 := rfl
@[simp] theorem State.resetBlock_r (s : State) : (s.resetBlock).r = 0 := rfl
@[simp] theorem State.resetBlock_cnt (s : State) : (s.resetBlock).cnt = 0 := rfl
@[simp] theorem State.resetBlock_i (s : State) : (s.resetBlock).i = 0 := rfl
@[simp] theorem State.resetBlock_col (s : State) : (s.resetBlock).col = 0b0000#4 := rfl
@[simp] theorem State.resetBlock_keyValid (s : State) : (s.resetBlock).keyValid = false := rfl
@[simp] theorem State.resetBlock_keyRow (s : State) : (s.resetBlock).keyRow = 0 := rfl
@[simp] theorem State.resetBlock_keyCol (s : State) : (s.resetBlock).keyCol = 0 := rfl
@[simp] theorem State.resetBlock_done (s : State) : (s.resetBlock).done = false := rfl
@[simp] theorem State.resetBlock_ledWord (s : State) : (s.resetBlock).ledWord = 0x00000000#32 := rfl
@[simp] theorem State.resetBlock_ledValid (s : State) : (s.resetBlock).ledValid = false := rfl
@[simp] theorem State.resetBlock_mask (s : State) : (s.resetBlock).mask = Vector.ofFn fun k => Config.freeIntensity (s.draws + k.val) := rfl
@[simp] theorem State.resetBlock_color (s : State) : (s.resetBlock).color = ⟨Config.freeIntensity (s.draws + 25), Config.freeIntensity (s.draws + 26),
      Config.freeIntensity (s.draws + 27)⟩ := rfl
@[simp] theorem State.resetBlock_params (s : State) : (s.resetBlock).params = s.params := rfl
@[simp] theorem State.resetBlock_hostMode (s : State) : (s.resetBlock).hostMode = .idle := rfl
@[simp] theorem State.resetBlock_hostKey (s : State) : (s.resetBlock).hostKey = none := rfl
@[simp] theorem State.resetBlock_program (s : State) : (s.resetBlock).program = [] := rfl
@[simp] theorem State.resetBlock_sleep (s : State) : (s.resetBlock).sleep = 0 := rfl
@[simp] theorem State.resetBlock_inputs (s : State) : (s.resetBlock).inputs = s.inputs := rfl
@[simp] theorem State.resetBlock_tick (s : State) : (s.resetBlock).tick = s.tick := rfl
@[simp] theorem State.resetBlock_draws (s : State) : (s.resetBlock).draws = s.draws + 28 := rfl
@[simp] theorem State.resetBlock_events (s : State) : (s.resetBlock).events = s.events := rfl

/-! ### What is read of the state, through the updates that do not touch it -/

@[simp] theorem State.log_pins (s : State) (e : Event) : (s.log e).pins = s.pins := rfl
@[simp] theorem State.log_pinsAt (s : State) (e : Event) (n : Nat) : (s.log e).pinsAt n = s.pinsAt n := rfl
@[simp] theorem State.log_rowBit (s : State) (e : Event) : (s.log e).rowBit = s.rowBit := rfl
@[simp] theorem State.log_transfer (s : State) (e : Event) : (s.log e).transfer = s.transfer := rfl
@[simp] theorem State.log_emitted (s : State) (e : Event) : (s.log e).emitted = s.emitted := rfl
@[simp] theorem State.log_keySym (s : State) (e : Event) : (s.log e).keySym = s.keySym := rfl
@[simp] theorem State.log_hostReadKey (s : State) (e : Event) : (s.log e).hostReadKey = s.hostReadKey := rfl
@[simp] theorem State.log_key (s : State) (e : Event) : (s.log e).key = s.key := rfl
@[simp] theorem State.log_busy (s : State) (e : Event) : (s.log e).busy = s.busy := rfl
@[simp] theorem State.log_cmdReady (s : State) (e : Event) : (s.log e).cmdReady = s.cmdReady := rfl
@[simp] theorem State.log_colsTo (s : State) (e : Event) (v : BitVec 4) : (s.log e).colsTo v = s.colsTo v := rfl
@[simp] theorem State.clearDone_pins (s : State) : (s.clearDone).pins = s.pins := rfl
@[simp] theorem State.clearDone_pinsAt (s : State) (n : Nat) : (s.clearDone).pinsAt n = s.pinsAt n := rfl
@[simp] theorem State.clearDone_rowBit (s : State) : (s.clearDone).rowBit = s.rowBit := rfl
@[simp] theorem State.clearDone_transfer (s : State) : (s.clearDone).transfer = s.transfer := rfl
@[simp] theorem State.clearDone_emitted (s : State) : (s.clearDone).emitted = s.emitted := rfl
@[simp] theorem State.clearDone_keySym (s : State) : (s.clearDone).keySym = s.keySym := rfl
@[simp] theorem State.clearDone_hostReadKey (s : State) : (s.clearDone).hostReadKey = s.hostReadKey := rfl
@[simp] theorem State.clearDone_key (s : State) : (s.clearDone).key = s.key := rfl
@[simp] theorem State.clearDone_busy (s : State) : (s.clearDone).busy = s.busy := rfl
@[simp] theorem State.clearDone_cmdReady (s : State) : (s.clearDone).cmdReady = s.cmdReady := rfl
@[simp] theorem State.clearDone_colsTo (s : State) (v : BitVec 4) : (s.clearDone).colsTo v = s.colsTo v := rfl
@[simp] theorem State.setProgram_pins (s : State) (ops : List HostOp) : (s.setProgram ops).pins = s.pins := rfl
@[simp] theorem State.setProgram_pinsAt (s : State) (ops : List HostOp) (n : Nat) : (s.setProgram ops).pinsAt n = s.pinsAt n := rfl
@[simp] theorem State.setProgram_rowBit (s : State) (ops : List HostOp) : (s.setProgram ops).rowBit = s.rowBit := rfl
@[simp] theorem State.setProgram_transfer (s : State) (ops : List HostOp) : (s.setProgram ops).transfer = s.transfer := rfl
@[simp] theorem State.setProgram_emitted (s : State) (ops : List HostOp) : (s.setProgram ops).emitted = s.emitted := rfl
@[simp] theorem State.setProgram_keySym (s : State) (ops : List HostOp) : (s.setProgram ops).keySym = s.keySym := rfl
@[simp] theorem State.setProgram_hostReadKey (s : State) (ops : List HostOp) : (s.setProgram ops).hostReadKey = s.hostReadKey := rfl
@[simp] theorem State.setProgram_key (s : State) (ops : List HostOp) : (s.setProgram ops).key = s.key := rfl
@[simp] theorem State.setProgram_busy (s : State) (ops : List HostOp) : (s.setProgram ops).busy = s.busy := rfl
@[simp] theorem State.setProgram_cmdReady (s : State) (ops : List HostOp) : (s.setProgram ops).cmdReady = s.cmdReady := rfl
@[simp] theorem State.setProgram_colsTo (s : State) (ops : List HostOp) (v : BitVec 4) : (s.setProgram ops).colsTo v = s.colsTo v := rfl
@[simp] theorem State.push_pins (s : State) (ops : List HostOp) : (s.push ops).pins = s.pins := rfl
@[simp] theorem State.push_pinsAt (s : State) (ops : List HostOp) (n : Nat) : (s.push ops).pinsAt n = s.pinsAt n := rfl
@[simp] theorem State.push_rowBit (s : State) (ops : List HostOp) : (s.push ops).rowBit = s.rowBit := rfl
@[simp] theorem State.push_transfer (s : State) (ops : List HostOp) : (s.push ops).transfer = s.transfer := rfl
@[simp] theorem State.push_emitted (s : State) (ops : List HostOp) : (s.push ops).emitted = s.emitted := rfl
@[simp] theorem State.push_keySym (s : State) (ops : List HostOp) : (s.push ops).keySym = s.keySym := rfl
@[simp] theorem State.push_hostReadKey (s : State) (ops : List HostOp) : (s.push ops).hostReadKey = s.hostReadKey := rfl
@[simp] theorem State.push_key (s : State) (ops : List HostOp) : (s.push ops).key = s.key := rfl
@[simp] theorem State.push_busy (s : State) (ops : List HostOp) : (s.push ops).busy = s.busy := rfl
@[simp] theorem State.push_cmdReady (s : State) (ops : List HostOp) : (s.push ops).cmdReady = s.cmdReady := rfl
@[simp] theorem State.push_colsTo (s : State) (ops : List HostOp) (v : BitVec 4) : (s.push ops).colsTo v = s.colsTo v := rfl
@[simp] theorem State.setSleep_pins (s : State) (m : Nat) : (s.setSleep m).pins = s.pins := rfl
@[simp] theorem State.setSleep_pinsAt (s : State) (m : Nat) (n : Nat) : (s.setSleep m).pinsAt n = s.pinsAt n := rfl
@[simp] theorem State.setSleep_rowBit (s : State) (m : Nat) : (s.setSleep m).rowBit = s.rowBit := rfl
@[simp] theorem State.setSleep_transfer (s : State) (m : Nat) : (s.setSleep m).transfer = s.transfer := rfl
@[simp] theorem State.setSleep_emitted (s : State) (m : Nat) : (s.setSleep m).emitted = s.emitted := rfl
@[simp] theorem State.setSleep_keySym (s : State) (m : Nat) : (s.setSleep m).keySym = s.keySym := rfl
@[simp] theorem State.setSleep_hostReadKey (s : State) (m : Nat) : (s.setSleep m).hostReadKey = s.hostReadKey := rfl
@[simp] theorem State.setSleep_key (s : State) (m : Nat) : (s.setSleep m).key = s.key := rfl
@[simp] theorem State.setSleep_busy (s : State) (m : Nat) : (s.setSleep m).busy = s.busy := rfl
@[simp] theorem State.setSleep_cmdReady (s : State) (m : Nat) : (s.setSleep m).cmdReady = s.cmdReady := rfl
@[simp] theorem State.setSleep_colsTo (s : State) (m : Nat) (v : BitVec 4) : (s.setSleep m).colsTo v = s.colsTo v := rfl
@[simp] theorem State.setHost_pins (s : State) (k : Option Byte) (m : HostMode) : (s.setHost k m).pins = s.pins := rfl
@[simp] theorem State.setHost_pinsAt (s : State) (k : Option Byte) (m : HostMode) (n : Nat) : (s.setHost k m).pinsAt n = s.pinsAt n := rfl
@[simp] theorem State.setHost_rowBit (s : State) (k : Option Byte) (m : HostMode) : (s.setHost k m).rowBit = s.rowBit := rfl
@[simp] theorem State.setHost_transfer (s : State) (k : Option Byte) (m : HostMode) : (s.setHost k m).transfer = s.transfer := rfl
@[simp] theorem State.setHost_emitted (s : State) (k : Option Byte) (m : HostMode) : (s.setHost k m).emitted = s.emitted := rfl
@[simp] theorem State.setHost_keySym (s : State) (k : Option Byte) (m : HostMode) : (s.setHost k m).keySym = s.keySym := rfl
@[simp] theorem State.setHost_hostReadKey (s : State) (k : Option Byte) (m : HostMode) : (s.setHost k m).hostReadKey = s.hostReadKey := rfl
@[simp] theorem State.setHost_key (s : State) (k : Option Byte) (m : HostMode) : (s.setHost k m).key = s.key := rfl
@[simp] theorem State.setHost_busy (s : State) (k : Option Byte) (m : HostMode) : (s.setHost k m).busy = s.busy := rfl
@[simp] theorem State.setHost_cmdReady (s : State) (k : Option Byte) (m : HostMode) : (s.setHost k m).cmdReady = s.cmdReady := rfl
@[simp] theorem State.setHost_colsTo (s : State) (k : Option Byte) (m : HostMode) (v : BitVec 4) : (s.setHost k m).colsTo v = s.colsTo v := rfl

end Sys2Proof.Machine
end

