-- ==== Sys2Proof/Laws/Ops.lean ====
section
/-! SUPPORT. One lemma for each shared operation that says everything it can do; the statements' proofs cite these. -/

namespace Sys2Proof.Machine

/-! ### Fairness -/

/-- A signal that is 1 infinitely often has, from every tick on, a first tick on which it is 1: the number of ticks a
word waits for a fair peripheral. -/
theorem InfinitelyOften.first {f : Nat → Bool} (h : InfinitelyOften f) (n : Nat) :
    ∃ k, f (n + k) = true ∧ ∀ j, j < k → f (n + j) = false := by
  have he : ∃ k, f (n + k) = true := by
    obtain ⟨k, hk, hf⟩ := h n
    exact ⟨k - n, by rwa [Nat.add_sub_cancel' hk]⟩
  exact ⟨Nat.find he, Nat.find_spec he, fun j hj => by simpa using Nat.find_min he hj⟩

/-! ### Inputs -/

/-- The inputs of this tick are those zero ticks from now. -/
theorem pinsAt_zero (s : State) : s.pinsAt 0 = s.pins := by
  unfold State.pinsAt State.pins
  cases s.inputs <;> simp

/-- A state whose inputs are the tail of `s`'s and whose count is one more sees `s`'s inputs one tick earlier. -/
theorem pinsAt_succ_of (s t : State) (k : Nat) (hi : t.inputs = s.inputs.tail) (ht : t.tick = s.tick + 1) :
    t.pinsAt k = s.pinsAt (k + 1) := by
  unfold State.pinsAt
  rw [hi, ht, List.drop_tail, show s.tick + 1 + k = s.tick + (k + 1) by omega]

/-- The inputs of a state depend on its list of inputs and its count of ticks alone. -/
theorem pins_congr (s t : State) (hi : t.inputs = s.inputs) (ht : t.tick = s.tick) : t.pins = s.pins := by
  unfold State.pins
  rw [hi, ht]

/-! ### The clock -/

/-- A reset tick ignores what the sequencer would do. -/
theorem clock_of_rst (f : State → State) (s : State) (h : s.pins.rst = true) :
    clock f s = endTick s s.resetBlock := by
  simp [clock, h]

/-- A tick without reset does `f` from a lowered `done`. -/
theorem clock_of_run (f : State → State) (s : State) (h : s.pins.rst = false) :
    clock f s = endTick s (f s.clearDone) := by
  simp [clock, h]

/-- Ticks with functions that agree on the state they start from are the same. -/
theorem clock_congr (f g : State → State) (s : State) (h : f s.clearDone = g s.clearDone) :
    clock f s = clock g s := by
  simp [clock, h]

/-- Every tick takes one input and counts one. -/
theorem clock_time (f : State → State) (s : State) :
    (clock f s).inputs = s.inputs.tail ∧ (clock f s).tick = s.tick + 1 := ⟨rfl, rfl⟩

/-- After a tick the inputs are those of one tick later. -/
theorem clock_pinsAt (f : State → State) (s : State) (k : Nat) : (clock f s).pinsAt k = s.pinsAt (k + 1) :=
  pinsAt_succ_of s _ k rfl rfl

/-- The wires' events by what they show: the columns, the transfer, the completion. -/
theorem wireEvents_eq (s t : State) :
    wireEvents s t = s.colsTo t.col ++ s.emitted ++ (if t.done then [.done (resultOf s.phase t)] else []) := rfl

/-- A tick that keeps the columns and completes nothing shows only a transfer. -/
theorem wireEvents_quiet (s t : State) (hc : t.col = s.col) (hd : t.done = false) : wireEvents s t = s.emitted := by
  simp [wireEvents_eq, State.colsTo, hc, hd]

/-! ### Taking an operation up -/

/-- Everything an offered command can do: a reset, its acceptance in IDLE, or the tick without it. -/
theorem offer_cases (i : Instr) (acc : State → State) (s : State) :
    (s.pins.rst = true ∧ offer i acc s = .next (endTick s s.resetBlock)) ∨
    (s.pins.rst = false ∧ s.phase = .idle ∧
      offer i acc s = .next (endTick s ((acc s.clearDone).log (.accept i)))) ∨
    (s.pins.rst = false ∧ s.phase ≠ .idle ∧ offer i acc s = .next (tickAlone s)) := by
  cases hr : s.pins.rst with
  | true => exact .inl ⟨rfl, by simp [offer, clock_of_rst _ s hr]⟩
  | false =>
    by_cases hp : s.phase = .idle
    · exact .inr (.inl ⟨rfl, hp, by simp [offer, clock_of_run _ s hr, hp]⟩)
    · exact .inr (.inr ⟨rfl, hp, by simp [offer, tickAlone, clock_of_run _ s hr, hp]⟩)

/-- An access away from its phase is the tick without it. -/
theorem access_elsewhere (f : State → State) (s : State) : access false f s = .next (tickAlone s) := by
  simp [access, tickAlone]

/-- An access in its phase is the tick that makes it. -/
theorem access_here (f : State → State) (s : State) : access true f s = .next (clock f s) := by
  simp [access]

/-! ### The sequencer's transitions, by case -/

/-- `K_DRIVE` in one record. -/
theorem driveTick_eq (v : BitVec 4) (s : State) :
    driveTick v s = { s with
      col := v, r := 0, cnt := if 1 < s.cnt then s.cnt - 1 else 0,
      phase := if 1 < s.cnt then s.phase else .kSample } := by
  unfold driveTick
  split <;> simp_all

/-- `K_WAIT` in one record. -/
theorem waitTick_eq (s : State) :
    waitTick s = { s with
      cnt := if 1 < s.cnt then s.cnt - 1 else 0, phase := if 1 < s.cnt then s.phase else .kResample } := by
  unfold waitTick
  split <;> simp_all

/-- A first read of 1 starts the debounce interval. -/
theorem sampleTick_true (s : State) :
    sampleTick true s =
      { s.log (.read s.c s.r false true) with cnt := s.params.debounceTicks, phase := .kWait } := rfl

/-- A first read of 0 goes on with the next row, or releases the column after row 3. -/
theorem sampleTick_false (s : State) :
    sampleTick false s =
      if s.r.val < 3 then { s.log (.read s.c s.r false false) with r := s.r + 1 }
      else { s.log (.read s.c s.r false false) with phase := .kRelease } := rfl

/-- A second read of 1 delivers the key. -/
theorem resampleTick_true (s : State) :
    resampleTick true s = deliverKey true s.r s.c (s.log (.read s.c s.r true true)) := rfl

/-- A second read of 0 goes on with the next row, or releases the column after row 3. -/
theorem resampleTick_false (s : State) :
    resampleTick false s =
      if s.r.val < 3 then { s.log (.read s.c s.r true false) with r := s.r + 1, phase := .kSample }
      else { s.log (.read s.c s.r true false) with phase := .kRelease } := rfl

/-- The build constants, the host, the inputs and the counts of time are the same in both states. -/
def KeepsHost (s t : State) : Prop :=
  t.params = s.params ∧ t.program = s.program ∧ t.sleep = s.sleep ∧ t.hostMode = s.hostMode ∧
  t.hostKey = s.hostKey ∧ t.inputs = s.inputs ∧ t.tick = s.tick

/-- What the sequencer keeps whatever it does. -/
theorem advance_keepsHost (s : State) : KeepsHost s (advance s) := by
  have hs : ∀ b, KeepsHost s (sampleTick b s) := by
    intro b
    cases b
    · rw [sampleTick_false]; split <;> simp [KeepsHost]
    · simp [sampleTick_true, KeepsHost]
  have hr : ∀ b, KeepsHost s (resampleTick b s) := by
    intro b
    cases b
    · rw [resampleTick_false]; split <;> simp [KeepsHost]
    · simp [resampleTick_true, KeepsHost]
  have hl : KeepsHost s (releaseTick s) := by
    unfold releaseTick
    split <;> simp [KeepsHost]
  have hp : ∀ b, KeepsHost s (pushTick b s) := by
    intro b
    unfold pushTick
    split
    · split <;> simp [KeepsHost]
    · simp [KeepsHost]
  unfold advance
  cases s.phase
  · simp [KeepsHost]
  · simp [driveTick_eq, KeepsHost]
  · exact hs _
  · simp [waitTick_eq, KeepsHost]
  · exact hr _
  · exact hl
  · simp [loadTick, KeepsHost]
  · exact hp _

/-! ### Fetch and step -/

/-- On a reset tick nothing is taken up. -/
theorem fetch_of_rst (s : State) (h : s.pins.rst = true) : fetch s = .tick := by
  simp [fetch, h]

/-- In IDLE without reset the host decides. -/
theorem fetch_of_idle (s : State) (hr : s.pins.rst = false) (hp : s.phase = .idle) : fetch s = hostFetch s := by
  simp [fetch, hr, hp]

/-- In a busy phase without reset the phase decides. -/
theorem fetch_of_busy (s : State) (hr : s.pins.rst = false) (hp : s.phase ≠ .idle) :
    fetch s = match busyAccess s with
      | some i => .run i s
      | none => .tick := by
  cases h : busyAccess s <;> simp [fetch, hr, hp, h]

/-- The step on a reset tick. -/
theorem step_of_rst (s : State) (h : s.pins.rst = true) : step s = .next (tickAlone s) := by
  simp [step, fetch_of_rst s h]

/-- In IDLE a host move at the head of the program is the step. -/
theorem step_of_hostMove (s : State) (op : HostOp) (rest : List HostOp) (hop : ∀ i, op ≠ .issue i)
    (hp : s.phase = .idle) (hr : s.pins.rst = false) (hs : s.sleep = 0) (hg : s.program = op :: rest) :
    step s = .next (hostMove op (s.setProgram rest)) := by
  cases op <;> simp_all [step, fetch_of_idle s hr hp, hostFetch]

/-- Everything a fetch in IDLE can give: nothing, the head of the program, or the command on the port. -/
theorem hostFetch_cases (s : State) :
    hostFetch s = .tick ∨
    (∃ i rest, s.program = .issue i :: rest ∧ hostFetch s = .run i (s.setProgram rest)) ∨
    (∃ op rest, s.program = op :: rest ∧ hostFetch s = .host op (s.setProgram rest)) ∨
    (s.program = [] ∧ s.pins.cmdValid = true ∧
      hostFetch s = .run (decodeCmd s.pins.cmdOp s.pins.opMask s.pins.opColor) s) := by
  unfold hostFetch
  by_cases hs : s.sleep > 0
  · simp [hs]
  · rw [if_neg hs]
    cases hp : s.program with
    | nil =>
      by_cases hv : s.pins.cmdValid = true
      · simp [hv]
      · simp [hv]
    | cons op rest =>
      cases op with
      | issue i => exact .inr (.inl ⟨i, rest, rfl, rfl⟩)
      | untilNone => exact .inr (.inr (.inl ⟨_, rest, rfl, rfl⟩))
      | branchOnKey table u => exact .inr (.inr (.inl ⟨_, rest, rfl, rfl⟩))
      | enter m => exact .inr (.inr (.inl ⟨_, rest, rfl, rfl⟩))
      | melody => exact .inr (.inr (.inl ⟨_, rest, rfl, rfl⟩))

/-- A host move changes only what is the host's, and the count of draws. -/
theorem hostMove_keeps (op : HostOp) (s : State) :
    (hostMove op s).phase = s.phase ∧ (hostMove op s).c = s.c ∧ (hostMove op s).r = s.r ∧
    (hostMove op s).cnt = s.cnt ∧ (hostMove op s).i = s.i ∧ (hostMove op s).col = s.col ∧
    (hostMove op s).key = s.key ∧ (hostMove op s).done = s.done ∧ (hostMove op s).ledWord = s.ledWord ∧
    (hostMove op s).ledValid = s.ledValid ∧ (hostMove op s).mask = s.mask ∧ (hostMove op s).color = s.color ∧
    (hostMove op s).params = s.params ∧ (hostMove op s).inputs = s.inputs ∧ (hostMove op s).tick = s.tick ∧
    (hostMove op s).events = s.events := by
  cases op with
  | issue i => simp [hostMove, State.key]
  | enter m => simp [hostMove, State.key]
  | melody => simp [hostMove, State.key]
  | untilNone =>
    simp only [hostMove, untilNone]
    split <;> simp [State.key]
  | branchOnKey table u =>
    simp only [hostMove, branchOnKey]
    split <;> simp [State.key]

end Sys2Proof.Machine
end

