-- ==== Sys2Proof/Laws/PerInstr.lean ====
section
/-! SUPPORT. One lemma per operation, about the operation as syntax: it has a code exactly when its row of the opcode table has a
width, and, for ENCODE, when its word is fixed (30_encoding.md R60, R74; 40_color_encoder.md R92). -/

namespace Sys2Proof.Laws.Coded

open Sys2Proof Sys2Proof.Machine

/-- The operations with a code: the rows of a width above 0, an ENCODE only with in-range channels. -/
def hasCode : Instr → Bool
  | .nop => true
  | .scan => true
  | .render _ _ => true
  | .reserved => true
  | .fill _ => true
  | .off => true
  | .encode red green blue => inRange red && inRange green && inRange blue
  | .coldrive _ => true
  | .rowread _ => true
  | .keyresult _ _ _ => true
  | .play _ => false
  | .awaitRelease => false
  | .dispatch _ _ => false
  | .pause _ => false

/-- Under every channel order the encoder gives a code exactly to the operations that have one. -/
def Statement (i : Instr) : Prop := ∀ o : ChannelOrder, (encode o i).isSome = hasCode i

theorem nop : Statement .nop := fun _ => rfl
theorem scan : Statement .scan := fun _ => rfl
theorem render (mask : Mask) (color : Color) : Statement (.render mask color) := fun _ => rfl
theorem reserved : Statement .reserved := fun _ => rfl
theorem fill (color : Color) : Statement (.fill color) := fun _ => rfl
theorem off : Statement .off := fun _ => rfl
theorem encode (red green blue : Intensity) : Statement (.encode red green blue) := by
  intro o
  cases h : inRange red && inRange green && inRange blue <;> simp [Sys2Proof.encode, hasCode, h]
theorem coldrive (v : BitVec 4) : Statement (.coldrive v) := fun _ => rfl
theorem rowread (active : Bool) : Statement (.rowread active) := fun _ => rfl
theorem keyresult (valid : Bool) (row col : Index4) : Statement (.keyresult valid row col) := fun _ => rfl
theorem play (anim : Animation) : Statement (.play anim) := fun _ => rfl
theorem awaitRelease : Statement .awaitRelease := fun _ => rfl
theorem dispatch (table : ActionTable) (unmapped : UnmappedAction) : Statement (.dispatch table unmapped) := fun _ => rfl
theorem pause (ms : Nat) : Statement (.pause ms) := fun _ => rfl

end Sys2Proof.Laws.Coded
end

