-- ==== Sys2Proof/Tests/Slice0.lean ====
section
/-! SUPPORT. The model's own tests: ill-formed terms, words written out from the formats, one step at a time of the spec's vectors
(95_test_vectors.md), and for each statement with hypotheses a concrete state and operands that meet them. -/

namespace Sys2Proof.Tests

open Sys2Proof Sys2Proof.Machine

/-- The next state of an outcome. -/
def after (o : Host.Outcome State Fault Refusal) : Option State :=
  match o with
  | .next t => some t
  | .fault _ => none
  | .refused _ => none

/-- Small parameters: S = 2, D = 3, 200 ticks a second. -/
def params : Params := { Params.default with clkHz := 200, settleTicks := 2, debounceTicks := 3 }

/-- A state in phase `p` on a tick with quiet inputs. -/
def at' (p : Phase) : State := { State.reset with params := params, phase := p, inputs := [Pins.quiet] }

/-- The same with the ready peripheral and all rows active. -/
def live (p : Phase) : State := { at' p with inputs := [{ Pins.quiet with rowIn := 0b1111, ledReady := true }] }

/-- The same on a reset tick. -/
def onReset (p : Phase) : State := { at' p with inputs := [{ Pins.quiet with rst := true }] }

def fifth : Color := ⟨mkRat 1 5, mkRat 1 5, mkRat 1 5⟩

def blink (fps : Nat) : Animation := ⟨Vector.replicate 5 Mask.ones, fifth, fps⟩

/-- The host in IDLE with `op` at the head of its program. -/
def hosting (op : HostOp) (key : Bool) : State := { at' .idle with program := [op, .untilNone], keyValid := key }

/-- A table with the three fixed entries. -/
def table : ActionTable := fixedEntries (Vector.replicate 5 Mask.ones) ⟨1, 0, 0⟩

/-! ### WellFormed: an ill-formed term for each check -/

theorem test_wf_column_two_high : (Instr.coldrive 0b0011#4).wellFormed = false := by decide
theorem test_wf_column_one_hot : (Instr.coldrive 0b0100#4).wellFormed = true := by decide
theorem test_wf_key_none_with_row : (Instr.keyresult false 1 0).wellFormed = false := by decide
theorem test_wf_play_rate_zero : (Instr.play (blink 0)).wellFormed = false := by decide
theorem test_wf_dispatch_rate_zero :
    (Instr.dispatch (table ++ [(0x32#8, .play (blink 0))]) .noOp).wellFormed = false := by decide +kernel
theorem test_wf_dispatch_fixed_entries : (Instr.dispatch table .noOp).wellFormed = true := by decide +kernel
/-- Key '1' at another rate, key 'B' in another colour, key '#' with another action, no entries at all. -/
theorem test_wf_dispatch_other_entries :
    (Instr.dispatch ((0x31#8, .play (blink 9)) :: table) .noOp).wellFormed = false ∧
    (Instr.dispatch ((0x42#8, .fill fifth) :: table) .noOp).wellFormed = false ∧
    (Instr.dispatch ((0x23#8, .off) :: table) .noOp).wellFormed = false ∧
    (Instr.dispatch [] .noOp).wellFormed = false := by decide +kernel

/-! ### Decode: words written out bit by bit from 30_encoding.md -/

theorem test_decode_nop : decodeTableWord 2 0b00 = some .nop := by decide
theorem test_decode_scan : decodeTableWord 2 0b01 = some .scan := by decide
theorem test_decode_render : decodeTableWord 2 0b10 = some (.render Mask.zeros Color.black) := by decide
theorem test_decode_reserved : decodeTableWord 2 0b11 = some .reserved := by decide
theorem test_decode_fill : decode .grb (.cmd 0b10 Mask.ones fifth) = .ok (.render Mask.ones fifth) := by rfl
theorem test_decode_off : decode .grb (.cmd 0b10 Mask.zeros Color.black) = .ok (.render Mask.zeros Color.black) := by rfl
/-- Vector E4: green is the top byte. -/
theorem test_decode_encode_green :
    decodeTableWord 32 0b11111111000000000000000000000000 = some (.encode 0 1 0) := by decide +kernel
/-- Vector E6. -/
theorem test_decode_encode_fifth :
    decodeTableWord 32 0x33333300 = some (.encode (mkRat 1 5) (mkRat 1 5) (mkRat 1 5)) := by decide +kernel
theorem test_decode_coldrive : decodeTableWord 4 0b1000 = some (.coldrive (onehot 3)) := by decide
theorem test_decode_rowread : decodeTableWord 1 0b1 = some (.rowread true) := by decide
theorem test_decode_keyresult : decodeTableWord 5 0b10111 = some (.keyresult true 1 3) := by decide
theorem test_decode_no_host_word : decodeTableWord 0 0 = none := by decide
theorem test_reject_low_byte : decodeBits 32 0x33333301 = .error .ledLowByteNotZero := by rfl
theorem test_reject_columns : decodeBits 4 0b0110 = .error .columnVectorNeverDriven := by rfl
theorem test_reject_key : decodeBits 5 0b00100 = .error .keyCodeNeverProduced := by rfl
theorem test_reject_beyond : decodeBits 2 4 = .error .bitsBeyondTheFormat := by rfl

/-! ### The colour encoder: the vectors of 95_test_vectors.md section 2.1 -/

/-- E8: truncation, not rounding. -/
theorem test_encode_E8 :
    encodeWord .grb 0 (mkRat 7 10) (mkRat 3 10) (mkRat 1 10) = (0x4CB21900#32, 0) := by decide +kernel
/-- E9: 255 only at exactly 1. -/
theorem test_encode_E9 :
    encodeWord .grb 0 (mkRat 1997 2000) (mkRat 499 500) (mkRat 999 1000) = (0xFEFEFE00#32, 0) := by decide +kernel
/-- The other channel orders of (1/5, 1/2, 1). -/
theorem test_encode_orders :
    (encodeWord .rgb 0 (mkRat 1 5) (mkRat 1 2) 1).1 = 0x337FFF00#32 ∧
    (encodeWord .bgr 0 (mkRat 1 5) (mkRat 1 2) 1).1 = 0xFF7F3300#32 := by decide +kernel
/-- The cyclic orders of (1, 0, 0). -/
theorem test_encode_cyclic_orders :
    (encodeWord .gbr 0 1 0 0).1 = 0x0000FF00#32 ∧ (encodeWord .brg 0 1 0 0).1 = 0x00FF0000#32 ∧
    (encodeWord .rbg 0 1 0 0).1 = 0xFF000000#32 := by decide +kernel
/-- F7: the triple product is truncated once. -/
theorem test_pixel_F7 :
    encodePixel .grb 0 (mkRat 9 10) ⟨mkRat 99 100, mkRat 99 100, mkRat 99 100⟩ = (0xE3E3E300#32, 0) := by decide +kernel
/-- F9: a mask value out of range draws three bytes though its product is in range. -/
theorem test_pixel_F9_draws : (encodePixel .grb 0 2 ⟨mkRat 1 2, mkRat 1 2, mkRat 1 2⟩).2 = 3 := by decide +kernel
/-- E15: only the red byte is drawn. -/
theorem test_encode_E15_draws : (encodeWord .grb 0 (mkRat 3 2) (mkRat 1 2) 0).2 = 1 := by decide +kernel
/-- A3, A5: pauses of 7 and 1001 frames a second. -/
theorem test_framePause : framePause 7 = 142 ∧ framePause 1001 = 0 ∧ framePause 3 = 333 := by decide
/-- S13: 328 ticks at 32768 Hz, 1 at 50 Hz. -/
theorem test_defaultDebounce : defaultDebounce 32768 = 328 ∧ defaultDebounce 50 = 1 ∧ defaultDebounce 1000000 = 10000 := by
  decide

/-! ### One step of each operation -/

theorem test_nop : (after (exec .nop { at' .idle with done := true })).map (fun t => (t.phase, t.done, t.tick)) =
    some (.idle, false, 1) := by decide +kernel
theorem test_reserved : (after (exec .reserved (at' .idle))).map (fun t => (t.phase, t.done, t.events)) =
    some (.idle, false, [.accept .reserved]) := by decide +kernel
/-- Vector H5. -/
theorem test_scan : (after (exec .scan { at' .idle with r := 3, done := true, keyValid := true })).map
    (fun t => (t.phase, t.c, t.r, t.cnt, t.done, t.keyValid)) = some (.kDrive, 0, 0, 2, false, true) := by decide +kernel
theorem test_render : (after (exec (.render Mask.ones fifth) { at' .idle with i := 24 })).map
    (fun t => (t.phase, t.i, t.mask, t.color)) = some (.lLoad, 0, Mask.ones, fifth) := by decide +kernel
/-- Vector H4. -/
theorem test_render_busy : (after (exec (.render Mask.ones fifth) { at' .kWait with cnt := 2 })).map
    (fun t => (t.phase, t.cnt, t.mask)) = some (.kWait, 1, Mask.zeros) := by decide +kernel
theorem test_fill : (after (exec (.fill fifth) (at' .idle))).map (fun t => (t.mask, t.events)) =
    some (Mask.ones, [.accept (.render Mask.ones fifth)]) := by decide +kernel
theorem test_off : (after (exec .off { at' .idle with mask := Mask.ones })).map (fun t => (t.phase, t.mask)) =
    some (.lLoad, Mask.zeros) := by decide +kernel
theorem test_encode : (after (exec (.encode (mkRat 1 2) (mkRat 1 4) (mkRat 3 4)) (at' .lLoad))).map
    (fun t => (t.phase, t.ledWord, t.ledValid)) = some (.lPush, 0x3F7FBF00#32, true) := by decide +kernel
/-- Trace T1, tick 1 (with S = 2 the phase stays). -/
theorem test_coldrive : (after (exec (.coldrive 0b0001#4) { at' .kDrive with cnt := 2, r := 3 })).map
    (fun t => (t.phase, t.col, t.r, t.cnt, t.events)) = some (.kDrive, 0b0001#4, 0, 1, [.cols 0b0001#4]) := by
  decide +kernel
theorem test_coldrive_last_column : (after (exec (.coldrive 0#4) { at' .kRelease with c := 3, col := 0b1000#4 })).map
    (fun t => (t.phase, t.col, t.done, t.events)) =
    some (.idle, 0#4, true, [.cols 0#4, .done (.key false 0 0)]) := by decide +kernel
theorem test_rowread_first : (after (exec (.rowread true) { at' .kSample with c := 1, r := 1 })).map
    (fun t => (t.phase, t.cnt, t.r)) = some (.kWait, 3, 1) := by decide +kernel
/-- Trace T1, tick 13. -/
theorem test_rowread_second : (after (exec (.rowread true) { at' .kResample with c := 1, r := 1, col := 0b0010#4 })).map
    (fun t => (t.phase, t.key, t.events)) = some (.idle, (true, 1, 1),
      [.read 1 1 true true, .cols 0#4, .done (.key true 1 1)]) := by decide +kernel
theorem test_keyresult : (after (exec (.keyresult true 3 2) (at' .kResample))).map (fun t => (t.key, t.done, t.keySym)) =
    some ((true, 3, 2), true, 0x23#8) := by decide +kernel
theorem test_play : (after (exec (.play (blink 3)) (at' .idle))).map (fun t => (t.program.length, t.program[1]?)) =
    some (10, some (.issue (.pause 333))) := by decide +kernel
theorem test_awaitRelease : (after (exec .awaitRelease (at' .idle))).map (fun t => t.program) =
    some [.issue .scan, .untilNone] := by decide +kernel
theorem test_dispatch : (after (exec (.dispatch [] .noOp) (at' .idle))).map (fun t => t.program) =
    some [.issue .scan, .branchOnKey [] .noOp] := by decide +kernel
/-- 7 ms at 200 Hz is 1.4 ticks. -/
theorem test_pause : (after (exec (.pause 7) (at' .idle))).map (fun t => (t.sleep, t.tick)) = some (2, 0) := by
  decide +kernel

/-! ### The step -/

/-- Vector H8: only `row_in[1]` counts. -/
theorem test_step_H8 : (after (step { at' .kSample with r := 1, inputs := [{ Pins.quiet with rowIn := 0b1101 }] })).map
    (fun t => (t.phase, t.r)) = some (.kSample, 2) := by decide +kernel
/-- Vector Z3: a reset tick on which the peripheral takes word 7. -/
theorem test_step_Z3 :
    (after (step { at' .lPush with
      i := 7, ledValid := true, ledWord := 0x33333300#32,
      inputs := [{ Pins.quiet with rst := true, ledReady := true }] })).map
      (fun t => (t.phase, t.ledValid, t.done, t.events)) =
    some (.idle, false, false, [.emit 7 0x33333300#32]) := by decide +kernel
/-- Vector T4, tick 50: the last transfer. -/
theorem test_step_last_word : (after (step { live .lPush with i := 24, ledValid := true })).map
    (fun t => (t.phase, t.done, t.ledValid, t.i)) = some (.idle, true, false, 24) := by decide +kernel
/-- A placed word is run by the very next step after reset. -/
theorem test_placed_scan : (after (step (State.reset.withFetchWord 2 0b01))).map (fun t => t.phase) = some .kDrive := by
  decide +kernel
theorem test_placed_led_word : (after (step (State.reset.withFetchWord 32 0x33557700))).map (fun t => t.ledWord) =
    some 0x33557700#32 := by decide +kernel
theorem test_placed_key : (after (step (State.reset.withFetchWord 5 0b11110))).map (fun t => t.key) =
    some (true, 3, 2) := by decide +kernel
theorem test_placed_columns : (after (step (State.reset.withFetchWord 4 0b0100))).map (fun t => t.col) =
    some 0b0100#4 := by decide +kernel
theorem test_placed_row : (after (step (State.reset.withFetchWord 1 1))).map (fun t => t.phase) = some .kWait := by
  decide +kernel
/-- Vector W5: an unmapped key does nothing and is awaited. -/
theorem test_branch_unmapped :
    (after (step { at' .idle with keyValid := true, keyRow := 0, keyCol := 3, program := [.branchOnKey [] .noOp] })).map
      (fun t => t.program.head?) = some (some (.enter .awaitRelease)) := by decide +kernel
/-- R53 case (c): a row between a high and a low column reads any value; with no key on it, 0. -/
theorem test_ideal_contention :
    idealMatrix [(1, 0), (1, 2)] 0b0001#4 0b0000#4 = true ∧ idealMatrix [(1, 0), (1, 2)] 0b0001#4 0b0010#4 = true ∧
    idealMatrix [(1, 0), (1, 2)] 0b0001#4 0b0001#4 = false := by decide +kernel

/-! ### The duties of the host (60_exceptions.md R176) -/

/-- A RENDER with operands out of range is on the port: no breach while the block is busy, one where it is accepted. -/
theorem test_duty_operands :
    ({ at' .kWait with inputs := [{ commandPins 0b10 with opColor := ⟨2, 0, 0⟩ }] } : State).hostDuty = true ∧
    ({ at' .idle with inputs := [{ commandPins 0b10 with opColor := ⟨2, 0, 0⟩ }] } : State).hostDuty = false ∧
    ({ at' .idle with inputs := [{ commandPins 0b10 with opColor := fifth }] } : State).hostDuty = true := by
  decide +kernel
/-- The reserved code is a breach also while the block is busy. -/
theorem test_duty_opcode :
    ({ at' .kWait with inputs := [commandPins 0b11] } : State).hostDuty = false ∧
    ({ at' .kWait with inputs := [commandPins 0b01] } : State).hostDuty = true := by decide +kernel
/-- So is a script that offers it; its operands are free on that tick. -/
theorem test_duty_scripted_reserved :
    (hosting (.issue .reserved) false).opcodeDuty = false ∧ (hosting (.issue .reserved) false).operandDuty = true ∧
    ({ hosting (.issue .reserved) false with sleep := 1 } : State).opcodeDuty = true ∧
    (hosting (.issue .scan) false).opcodeDuty = true ∧
    ({ at' .idle with inputs := [{ commandPins 0b11 with opColor := ⟨2, 0, 0⟩ }] } : State).opcodeDuty = false ∧
    ({ at' .idle with inputs := [{ commandPins 0b11 with opColor := ⟨2, 0, 0⟩ }] } : State).operandDuty = true := by
  decide +kernel
/-- KEY is used after `done` of the SCAN, with a RENDER between; before any SCAN, or while one is accepted, it is not. -/
theorem test_duty_reading :
    ({ at' .idle with
      program := [.untilNone], events := [.accept .scan, .done (.key false 0 0), .accept .off, .done .frame] } :
      State).hostDuty = true ∧
    ({ at' .idle with program := [.untilNone] } : State).hostDuty = false ∧
    ({ at' .idle with
      program := [.untilNone], events := [.accept .scan, .done (.key true 1 1), .accept .scan] } : State).hostDuty =
      false := by decide +kernel
theorem test_fair : InfinitelyOften (fun k => k % 2 == 0) ∧ ¬ InfinitelyOften (fun _ => false) :=
  ⟨fun n => ⟨2 * n, by omega, by simp⟩, fun h => by obtain ⟨k, _, hk⟩ := h 0; cases hk⟩

/-! ### Witnesses: for each statement with hypotheses, a state and operands that meet them together -/

theorem witness_NopAndReservedChangeNothing : (at' .idle).phase = .idle ∧ (at' .idle).pins.rst = false := by decide
theorem witness_ScanAcceptanceStartsSweep : (live .idle).phase = .idle ∧ (live .idle).pins.rst = false := by decide
theorem witness_RenderAcceptanceCapturesOperands :
    ({ at' .idle with ledValid := true } : State).phase = .idle ∧
    ({ at' .idle with ledValid := true } : State).pins.rst = false := by decide
theorem witness_FillIsRenderOnes :
    (at' .idle).phase = .idle ∧ (at' .idle).pins.rst = false ∧
    inRange fifth.red = true ∧ inRange fifth.green = true ∧ inRange fifth.blue = true := by decide +kernel
/-- The edges of the range. -/
theorem witness_FillIsRenderOnes_edges : inRange 0 = true ∧ inRange 1 = true := by decide +kernel
theorem witness_OffIsRenderZeros : (at' .idle).phase = .idle ∧ (at' .idle).pins.rst = false := by decide
theorem witness_BusyBlockTurnsCommandsAway : (at' .kWait).phase ≠ .idle := by decide
theorem witness_ResetTickOverridesEverything :
    (onReset .lPush).pins.rst = true ∧ takesTick .scan = true ∧ Instr.scan.wellFormed = true := by decide
theorem witness_ColdriveDrivesOneColumn : (at' .kDrive).phase = .kDrive ∧ (at' .kDrive).pins.rst = false := by decide
theorem witness_ColdriveReleasesTheColumn :
    (at' .kRelease).phase = .kRelease ∧ (at' .kRelease).pins.rst = false ∧ (at' .kRelease).c.val < 3 := by decide
theorem witness_ColdriveReleasesTheColumn_last :
    ({ at' .kRelease with c := 3 } : State).phase = .kRelease ∧ ({ at' .kRelease with c := 3 } : State).pins.rst = false ∧
    ¬ ({ at' .kRelease with c := 3 } : State).c.val < 3 := by decide
theorem witness_FirstReadOfRow : (at' .kSample).phase = .kSample ∧ (at' .kSample).pins.rst = false := by decide
theorem witness_FirstReadOfRow_last_row :
    ({ at' .kSample with r := 3 } : State).phase = .kSample ∧ ({ at' .kSample with r := 3 } : State).pins.rst = false ∧
    ¬ ({ at' .kSample with r := 3 } : State).r.val < 3 := by decide
theorem witness_SecondReadOfRow : (at' .kResample).phase = .kResample ∧ (at' .kResample).pins.rst = false := by decide
theorem witness_SecondReadOfRow_last_row :
    ({ at' .kResample with r := 3 } : State).phase = .kResample ∧
    ({ at' .kResample with r := 3 } : State).pins.rst = false ∧
    ¬ ({ at' .kResample with r := 3 } : State).r.val < 3 := by decide
theorem witness_KeyresultIsDelivered : (at' .kResample).pins.rst = false ∧ (at' .kResample).phase = .kResample := by decide
theorem witness_KeyresultIsDelivered_none :
    ({ at' .kRelease with c := 3 } : State).pins.rst = false ∧ ({ at' .kRelease with c := 3 } : State).phase = .kRelease ∧
    ({ at' .kRelease with c := 3 } : State).c = 3 := by decide
theorem witness_EncodePacksItsChannels :
    (at' .lLoad).phase = .lLoad ∧ (at' .lLoad).pins.rst = false ∧
    inRange 0 = true ∧ inRange 1 = true ∧ inRange (mkRat 1 2) = true := by decide +kernel
theorem witness_EncodeContinuesOutOfRange :
    (at' .lLoad).phase = .lLoad ∧ (at' .lLoad).pins.rst = false ∧ inRange 2 = false ∧ inRange 1 = true := by
  decide +kernel
theorem witness_AccessesElsewherePassTheTick :
    (at' .idle).phase ≠ .kDrive ∧ (at' .idle).phase ≠ .kRelease ∧ (at' .idle).phase ≠ .kSample ∧
    (at' .idle).phase ≠ .kResample ∧ (at' .idle).phase ≠ .lLoad := by decide
theorem witness_AccessesElsewherePassTheTick_column :
    (at' .kRelease).phase = .kRelease ∧ (at' .kRelease).c ≠ 3 := by decide
theorem witness_WordsNeverProducedAreRefused :
    (0b0011#4 ≠ 0b0000#4 ∧ ∀ k, 0b0011#4 ≠ onehot k) ∧ ((1, 0) : Index4 × Index4) ≠ (0, 0) := by decide
theorem witness_WaitCountsDown : (at' .kWait).phase = .kWait ∧ (at' .kWait).pins.rst = false := by decide
theorem witness_PushBlocksUntilAccepted :
    ({ live .lPush with ledValid := true } : State).phase = .lPush ∧
    ({ live .lPush with ledValid := true } : State).ledValid = true ∧
    ({ live .lPush with ledValid := true } : State).pins.rst = false ∧
    ({ live .lPush with ledValid := true } : State).pins.ledReady = true := by decide
theorem witness_PushBlocksUntilAccepted_last :
    ({ live .lPush with ledValid := true, i := 24 } : State).phase = .lPush ∧
    ({ live .lPush with ledValid := true, i := 24 } : State).ledValid = true ∧
    ({ live .lPush with ledValid := true, i := 24 } : State).pins.rst = false ∧
    ¬ ({ live .lPush with ledValid := true, i := 24 } : State).i.val < 24 := by decide
theorem witness_PushBlocksUntilAccepted_stalled :
    ({ at' .lPush with ledValid := true } : State).phase = .lPush ∧
    ({ at' .lPush with ledValid := true } : State).ledValid = true ∧
    ({ at' .lPush with ledValid := true } : State).pins.rst = false ∧
    ({ at' .lPush with ledValid := true } : State).pins.ledReady = false := by decide
theorem witness_PlayIsFiveRendersWithPauses : (blink 10).fps ≠ 0 ∧ (blink 0).fps = 0 := by decide

theorem witness_AwaitReleaseScansUntilNone :
    (hosting .untilNone true).phase = .idle ∧ (hosting .untilNone true).pins.rst = false ∧
    (hosting .untilNone true).sleep = 0 ∧ (hosting .untilNone true).program = .untilNone :: [.untilNone] ∧
    (hosting .untilNone true).keyValid = true ∧ (hosting .untilNone false).keyValid = false := by decide
theorem witness_DispatchPollsInIdle :
    (hosting (.branchOnKey [] .noOp) false).phase = .idle ∧ (hosting (.branchOnKey [] .noOp) false).pins.rst = false ∧
    (hosting (.branchOnKey [] .noOp) false).sleep = 0 ∧
    (hosting (.branchOnKey [] .noOp) false).program = .branchOnKey [] .noOp :: [.untilNone] ∧
    (hosting (.branchOnKey [] .noOp) false).keyValid = false := by decide
theorem witness_DispatchedActionIsTaken :
    (hosting (.branchOnKey [(0x31#8, .fill fifth)] .noOp) true).phase = .idle ∧
    (hosting (.branchOnKey [(0x31#8, .fill fifth)] .noOp) true).pins.rst = false ∧
    (hosting (.branchOnKey [(0x31#8, .fill fifth)] .noOp) true).sleep = 0 ∧
    (hosting (.branchOnKey [(0x31#8, .fill fifth)] .noOp) true).program =
      .branchOnKey [(0x31#8, .fill fifth)] .noOp :: [.untilNone] ∧
    (hosting (.branchOnKey [(0x31#8, .fill fifth)] .noOp) true).keyValid = true ∧
    List.lookup (hosting (.branchOnKey [(0x31#8, .fill fifth)] .noOp) true).keySym [(0x31#8, Action.fill fifth)] =
      some (.fill fifth) := by decide +kernel
theorem witness_DispatchedActionIsTaken_moves :
    (hosting (.enter .awaitRelease) true).phase = .idle ∧ (hosting (.enter .awaitRelease) true).pins.rst = false ∧
    (hosting (.enter .awaitRelease) true).sleep = 0 ∧
    (hosting (.enter .awaitRelease) true).program = .enter .awaitRelease :: [.untilNone] ∧
    (hosting .melody true).phase = .idle ∧ (hosting .melody true).pins.rst = false ∧
    (hosting .melody true).sleep = 0 ∧ (hosting .melody true).program = .melody :: [.untilNone] := by decide
theorem witness_DispatchedActionIsTaken_table : (Instr.dispatch table .offForDigits).wellFormed = true := by
  decide +kernel
/-- DISPATCH after a SCAN that reported the key at `row`, `col`, with no entries. -/
def unmappedKey (u : UnmappedAction) (row col : Index4) : State :=
  { hosting (.branchOnKey [] u) true with keyRow := row, keyCol := col }

/-- Key '0' is at row 3, column 1; key '9' at row 2, column 2; key 'A', no digit, at row 0, column 3. -/
theorem witness_UnmappedKeyStillAwaitsRelease :
    ∀ p : Index4 × Index4, (unmappedKey .offForDigits p.1 p.2).phase = .idle ∧
      (unmappedKey .offForDigits p.1 p.2).pins.rst = false ∧ (unmappedKey .offForDigits p.1 p.2).sleep = 0 ∧
      (unmappedKey .offForDigits p.1 p.2).program = .branchOnKey [] .offForDigits :: [.untilNone] ∧
      (unmappedKey .offForDigits p.1 p.2).keyValid = true ∧
      List.lookup (unmappedKey .offForDigits p.1 p.2).keySym ([] : ActionTable) = none :=
  fun _ => ⟨rfl, rfl, rfl, rfl, rfl, rfl⟩
theorem witness_UnmappedKeyStillAwaitsRelease_symbols :
    (unmappedKey .offForDigits 3 1).keySym = 0x30#8 ∧ (unmappedKey .offForDigits 2 2).keySym = 0x39#8 ∧
    (unmappedKey .offForDigits 0 3).keySym = 0x41#8 := by decide
theorem witness_UnmappedKeyStillAwaitsRelease_noOp :
    (unmappedKey .noOp 3 1).phase = .idle ∧ (unmappedKey .noOp 3 1).pins.rst = false ∧
    (unmappedKey .noOp 3 1).sleep = 0 ∧ (unmappedKey .noOp 3 1).program = .branchOnKey [] .noOp :: [.untilNone] ∧
    (unmappedKey .noOp 3 1).keyValid = true ∧
    List.lookup (unmappedKey .noOp 3 1).keySym ([] : ActionTable) = none := by decide
/-- OFF at both ends of the digits and not beyond; nothing under the default. -/
theorem test_branch_digits :
    (after (step (unmappedKey .offForDigits 3 1))).map (fun t => t.program.head?) = some (some (.issue .off)) ∧
    (after (step (unmappedKey .offForDigits 2 2))).map (fun t => t.program.head?) = some (some (.issue .off)) ∧
    (after (step (unmappedKey .offForDigits 0 3))).map (fun t => t.program.head?) =
      some (some (.enter .awaitRelease)) ∧
    (after (step (unmappedKey .noOp 3 1))).map (fun t => t.program.head?) = some (some (.enter .awaitRelease)) := by
  decide +kernel
theorem witness_PauseOffersNothingForItsTime :
    ({ at' .idle with sleep := 1 } : State).phase = .idle ∧ ({ at' .idle with sleep := 1 } : State).pins.rst = false ∧
    0 < ({ at' .idle with sleep := 1 } : State).sleep := by decide

/-- IDLE with a command on the port. -/
def offered : State := { at' .idle with inputs := [commandPins 0b01] }

theorem witness_StepRunsTheOfferedCommand :
    offered.phase = .idle ∧ offered.pins.rst = false ∧ offered.sleep = 0 ∧ offered.program = [] ∧
    offered.pins.cmdValid = true ∧
    decode offered.params.order (.cmd offered.pins.cmdOp offered.pins.opMask offered.pins.opColor) = .ok .scan :=
  ⟨rfl, rfl, rfl, rfl, rfl, rfl⟩
theorem witness_StepRunsTheOfferedCommand_none :
    (at' .idle).phase = .idle ∧ (at' .idle).pins.rst = false ∧ (at' .idle).sleep = 0 ∧ (at' .idle).program = [] ∧
    (at' .idle).pins.cmdValid = false := by decide
theorem witness_StepRunsTheProgramHead :
    (hosting (.issue .scan) false).phase = .idle ∧ (hosting (.issue .scan) false).pins.rst = false ∧
    (hosting (.issue .scan) false).sleep = 0 ∧
    (hosting (.issue .scan) false).program = .issue .scan :: [.untilNone] := by decide
theorem witness_StepRunsTheAccessOfThePhase :
    (at' .kDrive).pins.rst = false ∧ (at' .kDrive).phase = .kDrive ∧
    (live .kSample).pins.rst = false ∧ (live .kSample).phase = .kSample ∧
    (live .kResample).pins.rst = false ∧ (live .kResample).phase = .kResample ∧
    (at' .kRelease).pins.rst = false ∧ (at' .kRelease).phase = .kRelease := by decide
theorem witness_StepRunsTheAccessOfThePhase_load :
    (at' .lLoad).pins.rst = false ∧ (at' .lLoad).phase = .lLoad ∧
    pixelInRange (at' .lLoad).mask[(at' .lLoad).i] (at' .lLoad).color = true := by decide +kernel
theorem witness_StepRunsTheAccessOfThePhase_draws :
    ({ at' .lLoad with color := ⟨2, 0, 0⟩ } : State).pins.rst = false ∧
    ({ at' .lLoad with color := ⟨2, 0, 0⟩ } : State).phase = .lLoad ∧
    (after (step { at' .lLoad with color := ⟨2, 0, 0⟩ })).map (fun t => (t.phase, t.ledValid, t.draws)) =
      some (.lPush, true, 1) := by decide +kernel
theorem witness_BusyStepIsTheSequencersTick : (at' .lLoad).phase ≠ .idle := by decide
theorem witness_EveryStepKeepsTheInvariant :
    (at' .idle).invariant = true ∧ (after (step (at' .idle))).isSome = true := by decide +kernel
theorem witness_CounterFitsItsWidth :
    ({ at' .kWait with cnt := 3, col := 0b0001#4 } : State).invariant = true := by decide

/-- The middle of `K_DRIVE`. -/
def settling : State := { at' .kDrive with cnt := 1, col := 0b0001#4 }

theorem witness_ColumnsChangeThroughAllLow :
    settling.invariant = true ∧ settling.col ≠ 0b0000#4 ∧
    (after (step settling)).map (fun t => t.col) = some 0b0001#4 := by decide +kernel
theorem witness_BuildConstantsNeverChange : (after (step (at' .lLoad))).isSome = true := by decide +kernel
theorem witness_ResultRegisterWrittenOnlyAtCompletion :
    (live .kResample).pins.rst = false ∧ (after (step (live .kResample))).isSome = true ∧
    (live .kResample).phase = .kResample ∧ (live .kResample).pins.rowIn.getLsbD (live .kResample).r.val = true := by
  decide +kernel
theorem witness_ResultRegisterWrittenOnlyAtCompletion_none :
    ({ at' .kRelease with c := 3 } : State).pins.rst = false ∧ ({ at' .kRelease with c := 3 } : State).c = 3 ∧
    (after (step { at' .kRelease with c := 3 })).isSome = true := by decide +kernel
theorem witness_DoneMarksCompletionOnly :
    (live .kResample).pins.rst = false ∧
    (after (step (live .kResample))).map (fun t => (t.tick == (live .kResample).tick + 1, t.done)) =
      some (true, true) := by decide +kernel
theorem witness_OperandsWrittenOnlyByRender :
    (hosting (.issue (.fill fifth)) false).pins.rst = false ∧
    (after (step (hosting (.issue (.fill fifth)) false))).map
      (fun t => decide (t.mask ≠ (hosting (.issue (.fill fifth)) false).mask)) = some true := by decide +kernel
theorem witness_UnitsLeaveEachOtherAlone :
    (at' .kSample).pins.rst = false ∧ (after (step (at' .kSample))).isSome = true ∧
    (at' .lLoad).pins.rst = false ∧ (after (step (at' .lLoad))).isSome = true := by decide +kernel
theorem witness_OnlyTheRowBeingReadMatters :
    (at' .kSample).inputs = Pins.quiet :: [] ∧
    (0b1110#4).getLsbD (at' .kSample).r.val = Pins.quiet.rowIn.getLsbD (at' .kSample).r.val ∧
    (after (step (at' .kSample))).map (fun t => t.tick) = some ((at' .kSample).tick + 1) := by decide +kernel
theorem witness_OnlyTheRowBeingReadMatters_elsewhere :
    (at' .lPush).inputs = Pins.quiet :: [] ∧ (at' .lPush).phase ≠ .kSample ∧ (at' .lPush).phase ≠ .kResample ∧
    (after (step (at' .lPush))).map (fun t => t.tick) = some ((at' .lPush).tick + 1) := by decide +kernel
theorem witness_BusyBlockIgnoresTheCommandPort :
    (at' .kWait).inputs = Pins.quiet :: [] ∧ (at' .kWait).phase ≠ .idle := by decide

/-- `n` ticks of quiet inputs, the peripheral ready or not. -/
def streaming (p : Phase) (n : Nat) (ready : Bool) : State :=
  { at' p with inputs := List.replicate n { Pins.quiet with ledReady := ready } }

theorem witness_UnreadyPeripheralHangsTheBlock :
    ({ streaming .lPush 3 false with ledValid := true } : State).phase = .lPush ∧
    ({ streaming .lPush 3 false with ledValid := true } : State).ledValid = true ∧
    (∀ k, k < 3 → (({ streaming .lPush 3 false with ledValid := true } : State).pinsAt k).rst = false ∧
      (({ streaming .lPush 3 false with ledValid := true } : State).pinsAt k).ledReady = false) := by decide
theorem witness_RenderSendsItsFrameInOrder :
    (at' .idle).phase = .idle ∧ (at' .idle).ledValid = false ∧ (at' .idle).pins.rst = false ∧
    (after (exec (.render Mask.ones fifth) (at' .idle))).isSome = true := by decide +kernel
theorem witness_RenderSendsItsFrameInOrder_busy :
    ((at' .lLoad).ledValid = true ↔ (at' .lLoad).phase = .lPush) ∧ (at' .lLoad).phase = .lLoad ∧
    (at' .lLoad).pins.rst = false ∧ (after (step (at' .lLoad))).isSome = true := by decide +kernel
theorem witness_InRangeFrameIsExact : frameInRange Mask.ones fifth = true := by decide +kernel
/-- R101: `m = 2/5` with a channel of 2 draws that channel's byte though the product is in range; with the mask value out of
range all three are drawn. -/
theorem test_pixel_draws_one_channel :
    (encodePixel .grb 0 (mkRat 2 5) ⟨2, mkRat 1 2, 1⟩).2 = 1 ∧ (encodePixel .grb 0 (mkRat 2 5) ⟨2, mkRat 1 2, -1⟩).2 = 2 ∧
    (encodePixel .grb 0 (-1) ⟨mkRat 1 2, mkRat 1 2, 1⟩).2 = 3 := by decide +kernel

/-- A peripheral that is not ready on the first two ticks of the last `L_PUSH`. -/
def stalling : State :=
  { at' .idle with inputs := List.replicate 50 { Pins.quiet with ledReady := true } ++
      [Pins.quiet, Pins.quiet, { Pins.quiet with ledReady := true }] }

def lastStalls : Vector Nat 25 := (Vector.replicate 25 0).set 24 2

theorem witness_RenderRunsToCompletion :
    stalling.phase = .idle ∧ stalling.ledValid = false ∧
    (∀ k, k < 51 + lastStalls.toList.sum → (stalling.pinsAt k).rst = false) ∧
    (∀ (k : Fin 25) (j : Nat), j ≤ lastStalls[k] →
      (stalling.pinsAt (2 + 2 * k.val + (lastStalls.toList.take k.val).sum + j)).ledReady =
        decide (j = lastStalls[k])) := by
  decide +kernel

/-- 500 frames a second are pauses of 2 ms, one tick at 200 Hz. -/
theorem witness_PlaySendsFiveFrames :
    (blink 500).fps ≠ 0 ∧ (streaming .idle 260 true).phase = .idle ∧ (streaming .idle 260 true).ledValid = false ∧
    (streaming .idle 260 true).sleep = 0 ∧
    (∀ j : Fin 5, frameInRange (blink 500).masks[j] (blink 500).color = true) ∧
    (∀ k, k < 5 * (51 + msTicks (streaming .idle 260 true).params (1000 / (blink 500).fps)) →
      ((streaming .idle 260 true).pinsAt k).rst = false ∧ ((streaming .idle 260 true).pinsAt k).ledReady = true) := by
  decide +kernel
theorem witness_ScanRefinesTheProcedure :
    (streaming .idle 40 true).phase = .idle ∧ (streaming .idle 40 true).col = 0b0000#4 ∧
    (streaming .idle 40 true).ledValid = false ∧ 1 ≤ (streaming .idle 40 true).params.settleTicks ∧
    1 ≤ (streaming .idle 40 true).params.debounceTicks ∧
    (∀ k, k < (opScan (fun t _ r _ => ((streaming .idle 40 true).pinsAt t).rowIn.getLsbD r.val)
        (streaming .idle 40 true).params.settleTicks (streaming .idle 40 true).params.debounceTicks).time →
      ((streaming .idle 40 true).pinsAt k).rst = false) := by decide +kernel
theorem witness_SweepAlwaysEnds : (opScan (fun _ _ _ _ => false) 1 1).key = none := by decide
theorem witness_SingleKeyIsFound :
    ∀ (t : Nat) (c r : Index4) (k : Bool),
      (fun (_ : Nat) (c' r' : Index4) (_ : Bool) => decide (c' = 3) && decide (r' = 3)) t c r k =
        (decide (c = 3) && decide (r = 3)) := fun _ _ _ _ => rfl
/-- The key at row 3, column 3 under the ideal matrix. -/
theorem witness_SingleKeyIsFound_ideal :
    ∀ c r : Index4, ∃ rowIn : BitVec 4, idealMatrix [(3, 3)] (onehot c) rowIn = true ∧
      (decide (c = 3) && decide (r = 3)) = rowIn.getLsbD r.val := by decide +kernel
theorem witness_NoRowActiveGivesNone :
    ∀ (t : Nat) (c r : Index4) (k : Bool), (fun (_ : Nat) (_ _ : Index4) (_ : Bool) => false) t c r k = false :=
  fun _ _ _ _ => rfl
theorem witness_UnconfirmedReadIsNotReported :
    ∀ t : Nat, (fun (_ : Nat) (_ _ : Index4) (k : Bool) => !k) t 2 1 true = false := fun _ => rfl
theorem witness_ChannelByteTruncates :
    ((0 : Rat) ≤ 0 ∧ (0 : Rat) ≤ mkRat 1 2 ∧ mkRat 1 2 ≤ 1) ∧ (0 : Rat) ≤ 1 ∧ (1 : Rat) ≤ 1 := by decide +kernel
theorem witness_EncodedBytesInTheirPositions :
    (0 : Rat) ≤ mkRat 1 5 ∧ mkRat 1 5 ≤ 1 ∧ (0 : Rat) ≤ 0 ∧ (0 : Rat) ≤ 1 ∧ (1 : Rat) ≤ 1 := by decide +kernel
theorem witness_DecodeOfEncodeGivesItBack :
    (Instr.render Mask.ones fifth).wellFormed = true ∧
    encode .rgb (.render Mask.ones fifth) = some (.cmd 0b10 Mask.ones fifth) ∧
    (Instr.keyresult true 3 3).wellFormed = true ∧ encode .rgb (.keyresult true 3 3) = some (.key 0b11111#5) :=
  ⟨rfl, rfl, rfl, rfl⟩
theorem witness_EncodeOfDecodeGivesTheWordBack :
    decode .grb (.led 0xFF000000#32) = .ok (.encode (n255 0) (n255 255) (n255 0)) ∧
    decode .grb (.col 0b1000#4) = .ok (.coldrive 0b1000#4) ∧ decode .grb (.row 1#1) = .ok (.rowread true) ∧
    decode .grb (.key 0b10000#5) = .ok (.keyresult true 0 0) ∧
    decode .grb (.cmd 0b10 Mask.ones fifth) = .ok (.render Mask.ones fifth) ∧
    decode .grb (.cmd 0b11 Mask.ones fifth) = .ok .reserved := ⟨rfl, rfl, rfl, rfl, rfl, rfl⟩
theorem witness_KeySymbolZeroMeansNone :
    params.wf = true ∧ ({ at' .idle with keyValid := true } : State).params.wf = true ∧
    ({ at' .idle with keyValid := true } : State).keyValid = true := by decide

end Sys2Proof.Tests
end

section
/-! The ticks of a SCAN refine the procedure of the operation level (00_scope.md R6): the states of a sweep are written as
one record, `State.sweeping`; a tick takes one to the next; rows, then columns, follow the procedure's own recursion. -/

namespace Sys2Proof.Machine

/-! ### A busy tick -/

/-- A busy step that makes the access `i`, when `exec i` is the tick with `f` and `f` is what the sequencer does. -/
theorem step_of_access {s : State} {i : Instr} {f : State → State} (hr : s.pins.rst = false) (hp : s.phase ≠ .idle)
    (hi : busyAccess s = some i) (he : exec i s = .next (clock f s)) (hf : f s.clearDone = advance s.clearDone) :
    step s = .next (tickAlone s) := by
  simp only [step, fetch_of_busy s hr hp, hi, he, tickAlone, clock_congr f advance s hf]

/-- A busy step that makes no access with a name among the operations. -/
theorem step_of_no_access {s : State} (hr : s.pins.rst = false) (hp : s.phase ≠ .idle) (hi : busyAccess s = none) :
    step s = .next (tickAlone s) := by
  simp only [step, fetch_of_busy s hr hp, hi]

/-- Whatever access a busy phase makes, the step is the sequencer's own tick. -/
theorem step_of_busy (s : State) (hp : s.phase ≠ .idle) : step s = .next (tickAlone s) := by
  cases hr : s.pins.rst with
  | true => exact step_of_rst s hr
  | false =>
    cases h : s.phase with
    | idle => exact absurd h hp
    | kDrive =>
      exact step_of_access (i := .coldrive (onehot s.c)) (f := driveTick (onehot s.c)) hr hp (by simp [busyAccess, h])
        (by simp [exec, execColdrive, onehot_legal, access_here, h]) (by simp [advance, h])
    | kSample =>
      exact step_of_access (i := .rowread s.rowBit) (f := sampleTick s.rowBit) hr hp (by simp [busyAccess, h])
        (by simp [exec, execRowread, access_here, h]) (by simp [advance, h])
    | kWait => exact step_of_no_access hr hp (by simp [busyAccess, h])
    | kResample =>
      cases hb : s.rowBit with
      | true =>
        exact step_of_access (i := .keyresult true s.r s.c)
          (f := fun t => deliverKey true s.r s.c (t.log (.read t.c t.r true true))) hr hp
          (by simp [busyAccess, h, hb]) (by simp [exec, execKeyresult, legalKey, access_here, h])
          (by simp [advance, h, hb, resampleTick_true])
      | false =>
        exact step_of_access (i := .rowread false) (f := resampleTick false) hr hp (by simp [busyAccess, h, hb])
          (by simp [exec, execRowread, access_here, h]) (by simp [advance, h, hb])
    | kRelease =>
      by_cases hc : s.c.val < 3
      · exact step_of_access (i := .coldrive 0b0000#4) (f := releaseTick) hr hp (by simp [busyAccess, h, hc])
          (by simp [exec, execColdrive, legalCols, access_here, h]) (by simp [advance, h])
      · have hc3 : s.c = 3 := Fin.ext (show s.c.val = 3 by omega)
        exact step_of_access (i := .keyresult false 0 0) (f := deliverKey false 0 0) hr hp
          (by simp [busyAccess, h, hc3]) (by simp [exec, execKeyresult, legalKey, access_here, h, hc3])
          (by simp [advance, h, releaseTick, hc3])
    | lLoad =>
      cases hin : pixelInRange s.mask[s.i] s.color with
      | true =>
        exact step_of_access hr hp (by rw [busyAccess, h]; exact if_pos hin)
          (by rw [exec, execEncode, h]; exact access_here _ s)
          (by rw [advance, State.clearDone_phase, h]
              exact congrArg (offerWord · s.clearDone) (encodePixel_of_inRange _ _ _ _ hin).symm)
      | false => exact step_of_no_access hr hp (by rw [busyAccess, h]; exact if_neg (ne_true_of_eq_false hin))
    | lPush => exact step_of_no_access hr hp (by simp [busyAccess, h])

/-! ### Runs from the acceptance of a SCAN -/

/-- A run whose first step is known goes on from there. -/
theorem run_succ {a b : State} (h : step a = .next b) (n : Nat) :
    Host.Core.run core (n + 1) a = Host.Core.run core n b := by
  have h' : core.step a = .next b := h
  simp only [Host.Core.run, h']

/-- A run of at least one step has a first step. -/
theorem exists_step_of_run_succ {n : Nat} {a v : State} (h : Host.Core.run core (n + 1) a = .next v) :
    ∃ b, step a = .next b ∧ Host.Core.run core n b = .next v := by
  simp only [Host.Core.run] at h
  cases hs : core.step a with
  | next b => exact ⟨b, hs, by rwa [hs] at h⟩
  | fault r => rw [hs] at h; cases h
  | refused r => rw [hs] at h; cases h

/-- A run with one more step at its far end. -/
theorem run_succ_of_step {n : Nat} {a v w : State} (h : Host.Core.run core n a = .next v) (hv : step v = .next w) :
    Host.Core.run core (n + 1) a = .next w := by
  induction n generalizing a with
  | zero =>
    cases h
    exact run_succ hv 0
  | succ n ih =>
    obtain ⟨b, hab, hb⟩ := exists_step_of_run_succ h
    rw [run_succ hab, ih hb]

/-- `v` is the state `t` ticks after `s`, the first of them the acceptance of a SCAN (time 0 of the procedure). -/
def ScanReaches (s : State) (t : Nat) (v : State) : Prop :=
  ∃ a n, t = n + 1 ∧ exec .scan s = .next a ∧ Host.Core.run core n a = .next v

theorem ScanReaches.step {s v w : State} {t : Nat} (h : ScanReaches s t v) (hv : step v = .next w) :
    ScanReaches s (t + 1) w := by
  obtain ⟨a, n, rfl, ha, hn⟩ := h
  exact ⟨a, n + 1, rfl, ha, run_succ_of_step hn hv⟩

/-! ### The states of a sweep -/

/-- The registers that a sweep works with (10_state.md R12 to R15, R17). -/
structure ScanRegs where
  phase : Phase
  c : Index4
  r : Index4
  cnt : Nat
  col : BitVec 4

/-- `s` after `t` ticks of a SCAN that has shown the events `evs` since its acceptance and has its registers at `x`:
everything else is as in `s`. -/
def State.sweeping (s : State) (t : Nat) (evs : List Event) (x : ScanRegs) : State :=
  { s with
    phase := x.phase, c := x.c, r := x.r, cnt := x.cnt, col := x.col, done := false,
    inputs := s.inputs.drop t, tick := s.tick + t, sleep := s.sleep - t,
    events := s.events ++ .accept .scan :: evs }

/-- A sweep offers no LED word. -/
theorem State.sweeping_emitted (s : State) (hl : s.ledValid = false) (t : Nat) (evs : List Event) (x : ScanRegs) :
    (s.sweeping t evs x).emitted = [] := by
  simp [State.emitted, State.transfer, State.sweeping, hl]

/-- The registers after the row `r` of column `c` gave no key: the next row, or the release of the column
(42_keypad_scanner.md R125). -/
def afterRow (c r : Index4) : ScanRegs :=
  if r.val < 3 then ⟨.kSample, c, r + 1, 0, onehot c⟩ else ⟨.kRelease, c, r, 0, onehot c⟩

/-- A busy tick of a sweep without reset is the sequencer's transition and the bookkeeping of the tick. -/
theorem step_sweeping {s : State} {t : Nat} (hr : (s.pinsAt t).rst = false) (evs : List Event) (x : ScanRegs)
    (hx : x.phase ≠ .idle) :
    step (s.sweeping t evs x) = .next (endTick (s.sweeping t evs x) (advance (s.sweeping t evs x))) := by
  rw [step_of_busy _ hx, tickAlone, clock_of_run advance (s.sweeping t evs x) hr]
  rfl

/-- The bookkeeping of a tick inside a sweep: only a change of the columns shows on the wires. -/
theorem endTick_sweeping {s : State} (hl : s.ledValid = false) (t : Nat) (evs evs' : List Event) (x y : ScanRegs) :
    endTick (s.sweeping t evs x) (s.sweeping t evs' y) =
      s.sweeping (t + 1) (evs' ++ if y.col = x.col then [] else [.cols y.col]) y := by
  have hw : wireEvents (s.sweeping t evs x) (s.sweeping t evs' y) = if y.col = x.col then [] else [.cols y.col] := by
    rw [wireEvents_eq, s.sweeping_emitted hl]
    exact (List.append_nil _).trans (List.append_nil _)
  simp only [endTick, hw]
  simp [State.sweeping, Nat.sub_sub, Nat.add_assoc]

/-- The bookkeeping of the tick that ends a sweep: the columns fall, then `done` (10_state.md R35). -/
theorem endTick_deliverKey {s : State} (hl : s.ledValid = false) (t : Nat) (evs evs' : List Event) (x y : ScanRegs)
    (hx : x.phase ≠ .lPush) (hc : x.col ≠ 0b0000#4) (valid : Bool) (row col : Index4) :
    endTick (s.sweeping t evs x) (deliverKey valid row col (s.sweeping t evs' y)) =
      deliverKey valid row col
        (s.sweeping (t + 1) (evs' ++ [.cols 0b0000#4, .done (.key valid row col)]) y) := by
  have hres : resultOf x.phase (deliverKey valid row col (s.sweeping t evs' y)) = .key valid row col := by
    cases h : x.phase with
    | lPush => exact absurd h hx
    | _ => rfl
  have hw : wireEvents (s.sweeping t evs x) (deliverKey valid row col (s.sweeping t evs' y)) =
      [.cols 0b0000#4, .done (.key valid row col)] := by
    rw [wireEvents_eq, s.sweeping_emitted hl]
    simpa [State.colsTo, State.sweeping, hc.symm] using hres
  simp only [endTick, hw]
  simp [State.sweeping, deliverKey, Nat.sub_sub, Nat.add_assoc]

/-- A run of a SCAN one tick on, when the sequencer goes from `x` to `y` and logs what makes `evs'` of `evs`. -/
theorem ScanReaches.tick {s : State} (hl : s.ledValid = false) {t : Nat} {evs evs' : List Event} {x y : ScanRegs}
    (h : ScanReaches s t (s.sweeping t evs x)) (hr : (s.pinsAt t).rst = false) (hx : x.phase ≠ .idle)
    (ha : advance (s.sweeping t evs x) = s.sweeping t evs' y) :
    ScanReaches s (t + 1) (s.sweeping (t + 1) (evs' ++ if y.col = x.col then [] else [.cols y.col]) y) := by
  refine h.step ?_
  rw [step_sweeping hr evs x hx, ha, endTick_sweeping hl]

/-- A tick that keeps the columns shows nothing on the wires. -/
theorem ScanReaches.quietTick {s : State} (hl : s.ledValid = false) {t : Nat} {evs evs' : List Event} {x y : ScanRegs}
    (h : ScanReaches s t (s.sweeping t evs x)) (hr : (s.pinsAt t).rst = false) (hx : x.phase ≠ .idle)
    (ha : advance (s.sweeping t evs x) = s.sweeping t evs' y) (hc : y.col = x.col) :
    ScanReaches s (t + 1) (s.sweeping (t + 1) evs' y) := by
  simpa [hc] using h.tick hl hr hx ha

/-- The acceptance of a SCAN starts the sweep at column 0 (10_state.md R32). -/
theorem scanReaches_acceptance {s : State} (hp : s.phase = .idle) (hl : s.ledValid = false)
    (hr : (s.pinsAt 0).rst = false) :
    ScanReaches s 1 (s.sweeping 1 [] ⟨.kDrive, 0, 0, s.params.settleTicks, s.col⟩) := by
  rw [pinsAt_zero] at hr
  refine ⟨_, 0, rfl, ?_, rfl⟩
  simp [exec, execScan, offer, clock_of_run _ s hr, hp, acceptScan, State.log, State.clearDone, endTick,
    State.sweeping, wireEvents_eq, State.colsTo, State.emitted, State.transfer, hl]

/-! ### The sequencer's transitions inside a sweep (10_state.md R32) -/

section Transitions
variable (s : State) (t : Nat) (evs : List Event) (c r : Index4) (n : Nat) (col : BitVec 4)

theorem advance_settling : advance (s.sweeping t evs ⟨.kDrive, c, r, n + 2, col⟩) =
    s.sweeping t evs ⟨.kDrive, c, 0, n + 1, onehot c⟩ := rfl

theorem advance_settled : advance (s.sweeping t evs ⟨.kDrive, c, r, 1, col⟩) =
    s.sweeping t evs ⟨.kSample, c, 0, 0, onehot c⟩ := rfl

theorem advance_waiting : advance (s.sweeping t evs ⟨.kWait, c, r, n + 2, col⟩) =
    s.sweeping t evs ⟨.kWait, c, r, n + 1, col⟩ := rfl

theorem advance_waited : advance (s.sweeping t evs ⟨.kWait, c, r, 1, col⟩) =
    s.sweeping t evs ⟨.kResample, c, r, 0, col⟩ := rfl

theorem advance_sampling : advance (s.sweeping t evs ⟨.kSample, c, r, n, col⟩) =
    sampleTick ((s.pinsAt t).rowIn.getLsbD r.val) (s.sweeping t evs ⟨.kSample, c, r, n, col⟩) := rfl

theorem advance_resampling : advance (s.sweeping t evs ⟨.kResample, c, r, n, col⟩) =
    resampleTick ((s.pinsAt t).rowIn.getLsbD r.val) (s.sweeping t evs ⟨.kResample, c, r, n, col⟩) := rfl

theorem advance_sample_active (hb : (s.pinsAt t).rowIn.getLsbD r.val = true) :
    advance (s.sweeping t evs ⟨.kSample, c, r, n, col⟩) =
      s.sweeping t (evs ++ [.read c r false true]) ⟨.kWait, c, r, s.params.debounceTicks, col⟩ := by
  rw [advance_sampling, hb, sampleTick_true]
  simp [State.sweeping, State.log]

theorem advance_sample_inactive (hb : (s.pinsAt t).rowIn.getLsbD r.val = false) :
    advance (s.sweeping t evs ⟨.kSample, c, r, 0, onehot c⟩) =
      s.sweeping t (evs ++ [.read c r false false]) (afterRow c r) := by
  rw [advance_sampling, hb, sampleTick_false, afterRow]
  by_cases hr : r.val < 3 <;> simp [State.sweeping, State.log, hr]

theorem advance_resample_confirmed (hb : (s.pinsAt t).rowIn.getLsbD r.val = true) :
    advance (s.sweeping t evs ⟨.kResample, c, r, n, col⟩) =
      deliverKey true r c (s.sweeping t (evs ++ [.read c r true true]) ⟨.kResample, c, r, n, col⟩) := by
  rw [advance_resampling, hb, resampleTick_true]
  simp [State.sweeping, State.log]

theorem advance_resample_unconfirmed (hb : (s.pinsAt t).rowIn.getLsbD r.val = false) :
    advance (s.sweeping t evs ⟨.kResample, c, r, 0, onehot c⟩) =
      s.sweeping t (evs ++ [.read c r true false]) (afterRow c r) := by
  rw [advance_resampling, hb, resampleTick_false, afterRow]
  by_cases hr : r.val < 3 <;> simp [State.sweeping, State.log, hr]

theorem advance_release_next (hc : c.val < 3) :
    advance (s.sweeping t evs ⟨.kRelease, c, r, n, col⟩) =
      s.sweeping t evs ⟨.kDrive, c + 1, r, s.params.settleTicks, 0b0000#4⟩ := if_pos hc

theorem advance_release_last : advance (s.sweeping t evs ⟨.kRelease, 3, r, n, col⟩) =
    deliverKey false 0 0 (s.sweeping t evs ⟨.kRelease, 3, r, n, col⟩) := rfl

end Transitions

/-! ### The pieces of a run -/

/-- A column settles for as many ticks as `cnt` says, driven from the first of them (42_keypad_scanner.md R121). -/
theorem ScanReaches.settle {s : State} (hl : s.ledValid = false) {c : Index4} (n : Nat) :
    ∀ {t : Nat} {evs : List Event} {r : Index4} {col : BitVec 4},
      ScanReaches s t (s.sweeping t evs ⟨.kDrive, c, r, n + 1, col⟩) →
      (∀ k, k < t + (n + 1) → (s.pinsAt k).rst = false) →
      ScanReaches s (t + (n + 1)) (s.sweeping (t + (n + 1))
        (evs ++ if onehot c = col then [] else [.cols (onehot c)]) ⟨.kSample, c, 0, 0, onehot c⟩) := by
  induction n with
  | zero =>
    intro t evs r col h hr
    exact h.tick hl (hr t (by omega)) (by simp) (advance_settled ..)
  | succ n ih =>
    intro t evs r col h hr
    have hrun := ih (h.tick hl (hr t (by omega)) (by simp) (advance_settling ..)) fun k hk => hr k (by omega)
    rw [if_pos rfl, List.append_nil, Nat.add_assoc, Nat.add_comm 1] at hrun
    exact hrun

/-- The debounce interval is as many ticks as `cnt` says (42_keypad_scanner.md R123). -/
theorem ScanReaches.wait {s : State} (hl : s.ledValid = false) {c r : Index4} {evs : List Event} {col : BitVec 4}
    (n : Nat) : ∀ {t : Nat},
      ScanReaches s t (s.sweeping t evs ⟨.kWait, c, r, n + 1, col⟩) →
      (∀ k, k < t + (n + 1) → (s.pinsAt k).rst = false) →
      ScanReaches s (t + (n + 1)) (s.sweeping (t + (n + 1)) evs ⟨.kResample, c, r, 0, col⟩) := by
  induction n with
  | zero =>
    intro t h hr
    exact h.quietTick hl (hr t (by omega)) (by simp) (advance_waited ..) rfl
  | succ n ih =>
    intro t h hr
    have hrun := ih (h.quietTick hl (hr t (by omega)) (by simp) (advance_waiting ..) rfl) fun k hk => hr k (by omega)
    rwa [Nat.add_assoc, Nat.add_comm 1] at hrun

/-- A run of a SCAN has ended as the sweep `w` says: its events and `done`, its result, its time, the columns low, and
nothing else changed. -/
def Completes (s : State) (w : Sweep) : Prop :=
  ∃ valid row col x, w.result = .key valid row col ∧
    ScanReaches s w.time (deliverKey valid row col (s.sweeping w.time (w.events ++ [.done w.result]) x))

/-- The tick that delivers the result ends the sweep. -/
theorem ScanReaches.deliver {s : State} (hl : s.ledValid = false) {t : Nat} {evs evs' : List Event} {x : ScanRegs}
    {valid : Bool} {row col : Index4} {key : Option (Index4 × Index4)}
    (h : ScanReaches s t (s.sweeping t evs x)) (hr : (s.pinsAt t).rst = false)
    (hi : x.phase ≠ .idle) (hp : x.phase ≠ .lPush) (hc : x.col ≠ 0b0000#4)
    (ha : advance (s.sweeping t evs x) = deliverKey valid row col (s.sweeping t evs' x))
    (hres : Sweep.result ⟨evs' ++ [.cols 0b0000#4], key, t + 1⟩ = .key valid row col) :
    Completes s ⟨evs' ++ [.cols 0b0000#4], key, t + 1⟩ := by
  refine ⟨valid, row, col, x, hres, h.step ?_⟩
  rw [step_sweeping hr evs x hi, ha, endTick_deliverKey hl t evs evs' x x hp hc, hres, List.append_assoc]
  rfl

/-! ### Rows and columns -/

/-- What the rows answer on the ticks after `s`. -/
abbrev State.rowAnswers (s : State) : RowAnswer := fun t _ r _ => (s.pinsAt t).rowIn.getLsbD r.val

/-- `ks` are the indices after `k`, in order. -/
inductive IndicesAfter : Index4 → List Index4 → Prop where
  | last : IndicesAfter 3 []
  | next {k : Index4} {ks : List Index4} (hk : k.val < 3) (h : IndicesAfter (k + 1) ks) :
      IndicesAfter k ((k + 1) :: ks)

theorem indicesAfter_zero : IndicesAfter 0 [1, 2, 3] :=
  .next (k := 0) (by decide) (.next (k := 1) (by decide) (.next (k := 2) (by decide) .last))

section Procedure
variable {ans : RowAnswer} {t : Nat} {c r : Index4}

/-- A row whose first read is 0 is passed (42_keypad_scanner.md R122). -/
theorem sweepRows_inactive (h : ans t c r false = false) (d : Nat) (rs : List Index4) :
    sweepRows ans d c (r :: rs) t =
      ⟨[.read c r false false] ++ (sweepRows ans d c rs (t + 1)).events, (sweepRows ans d c rs (t + 1)).key,
        (sweepRows ans d c rs (t + 1)).time⟩ := by
  simp [sweepRows, h]

/-- A row whose second read is 0 is passed (42_keypad_scanner.md R125). -/
theorem sweepRows_unconfirmed {d : Nat} (h : ans t c r false = true) (h' : ans (t + d + 1) c r true = false)
    (rs : List Index4) :
    sweepRows ans d c (r :: rs) t =
      ⟨[.read c r false true, .read c r true false] ++ (sweepRows ans d c rs (t + d + 2)).events,
        (sweepRows ans d c rs (t + d + 2)).key, (sweepRows ans d c rs (t + d + 2)).time⟩ := by
  simp [sweepRows, h, h']

/-- A row whose two reads are 1 is the key (42_keypad_scanner.md R124). -/
theorem sweepRows_confirmed {d : Nat} (h : ans t c r false = true) (h' : ans (t + d + 1) c r true = true)
    (rs : List Index4) :
    sweepRows ans d c (r :: rs) t =
      ⟨[.read c r false true, .read c r true true], some (r, c), t + d + 2⟩ := by
  simp [sweepRows, h, h']

/-- A column with a key ends the sweep. -/
theorem sweepCols_of_some {st d : Nat} {k : Index4 × Index4}
    (h : (sweepRows ans d c [0, 1, 2, 3] (t + st)).key = some k) (cs : List Index4) :
    sweepCols ans st d (c :: cs) t =
      ⟨[.cols (onehot c)] ++ (sweepRows ans d c [0, 1, 2, 3] (t + st)).events ++ [.cols 0b0000#4], some k,
        (sweepRows ans d c [0, 1, 2, 3] (t + st)).time⟩ := by
  simp [sweepCols, h]

/-- A column without a key is released, and the sweep goes on with the columns behind it. -/
theorem sweepCols_of_none {st d : Nat} (h : (sweepRows ans d c [0, 1, 2, 3] (t + st)).key = none)
    (cs : List Index4) :
    sweepCols ans st d (c :: cs) t =
      let q := sweepRows ans d c [0, 1, 2, 3] (t + st)
      let w := sweepCols ans st d cs (q.time + 1)
      ⟨[.cols (onehot c)] ++ q.events ++ [.cols 0b0000#4] ++ w.events, w.key, w.time⟩ := by
  simp [sweepCols, h]

/-- Time does not go back in a column's rows. -/
theorem le_sweepRows_time (ans : RowAnswer) (d : Nat) (c : Index4) (rs : List Index4) (t : Nat) :
    t ≤ (sweepRows ans d c rs t).time := by
  induction rs generalizing t with
  | nil => exact Nat.le_refl t
  | cons r rs ih =>
    cases h : ans t c r false with
    | false =>
      rw [sweepRows_inactive h]
      exact (Nat.le_succ t).trans (ih (t + 1))
    | true =>
      cases h' : ans (t + d + 1) c r true with
      | false =>
        rw [sweepRows_unconfirmed h h']
        exact (Nat.le_add_right t (d + 2)).trans (ih (t + d + 2))
      | true =>
        rw [sweepRows_confirmed h h']
        exact Nat.le_add_right t (d + 2)

/-- Time does not go back in a sweep's columns. -/
theorem le_sweepCols_time (ans : RowAnswer) (st d : Nat) (cs : List Index4) (t : Nat) :
    t ≤ (sweepCols ans st d cs t).time := by
  induction cs generalizing t with
  | nil => exact Nat.le_refl t
  | cons c cs ih =>
    have hq := (Nat.le_add_right t st).trans (le_sweepRows_time ans d c [0, 1, 2, 3] (t + st))
    cases h : (sweepRows ans d c [0, 1, 2, 3] (t + st)).key with
    | none =>
      rw [sweepCols_of_none h]
      exact (Nat.le_succ_of_le hq).trans (ih _)
    | some k =>
      rw [sweepCols_of_some h]
      exact hq

end Procedure

/-- A run has come to the end of column `c` as `q` says, with the events `evs` before it: the column is about to be
released, or a key of it has ended the sweep. -/
def ColumnEnds (s : State) (c : Index4) (evs : List Event) (q : Sweep) : Prop :=
  match q.key with
  | none => ScanReaches s q.time (s.sweeping q.time (evs ++ q.events) ⟨.kRelease, c, 3, 0, onehot c⟩)
  | some k => Completes s ⟨evs ++ q.events ++ [.cols 0b0000#4], some k, q.time⟩

/-- Events before a column's end may be counted to the column. -/
theorem columnEnds_append (s : State) (c : Index4) (evs es : List Event) (q : Sweep) :
    ColumnEnds s c (evs ++ es) q ↔ ColumnEnds s c evs ⟨es ++ q.events, q.key, q.time⟩ := by
  obtain ⟨es', key, t⟩ := q
  cases key <;> simp only [ColumnEnds, List.append_assoc]

/-- The columns stay driven until they are released. -/
theorem afterRow_col (c r : Index4) : (afterRow c r).col = onehot c := by
  unfold afterRow
  split <;> rfl

/-- One row of a column (42_keypad_scanner.md R122 to R125), when the run from `afterRow` refines the rows behind it. -/
theorem row_refines {s : State} (hl : s.ledValid = false) (hd : 1 ≤ s.params.debounceTicks) {c r : Index4}
    {rs : List Index4}
    (hrest : ∀ t evs, ScanReaches s t (s.sweeping t evs (afterRow c r)) →
      (∀ k, k < (sweepRows s.rowAnswers s.params.debounceTicks c rs t).time → (s.pinsAt k).rst = false) →
      ColumnEnds s c evs (sweepRows s.rowAnswers s.params.debounceTicks c rs t))
    {t : Nat} {evs : List Event}
    (h : ScanReaches s t (s.sweeping t evs ⟨.kSample, c, r, 0, onehot c⟩))
    (hr : ∀ k, k < (sweepRows s.rowAnswers s.params.debounceTicks c (r :: rs) t).time → (s.pinsAt k).rst = false) :
    ColumnEnds s c evs (sweepRows s.rowAnswers s.params.debounceTicks c (r :: rs) t) := by
  generalize hD : s.params.debounceTicks = d at *
  cases h1 : s.rowAnswers t c r false with
  | false =>
    rw [sweepRows_inactive h1] at hr ⊢
    have hle : t + 1 ≤ (sweepRows s.rowAnswers d c rs (t + 1)).time := le_sweepRows_time ..
    exact (columnEnds_append ..).1 (hrest _ _
      (h.quietTick hl (hr t hle) (by simp) (advance_sample_inactive _ _ _ _ _ h1) (afterRow_col c r)) hr)
  | true =>
    have hwaited (hrst : ∀ k, k < t + 1 + d → (s.pinsAt k).rst = false) :
        ScanReaches s (t + d + 1) (s.sweeping (t + d + 1) (evs ++ [.read c r false true])
          ⟨.kResample, c, r, 0, onehot c⟩) := by
      have hs := h.quietTick hl (hrst t (by omega)) (by simp) (advance_sample_active _ _ _ _ _ _ _ h1) rfl
      obtain ⟨n, rfl⟩ : ∃ n, d = n + 1 := ⟨d - 1, by omega⟩
      rw [hD] at hs
      have hw := hs.wait hl n hrst
      rwa [show t + 1 + (n + 1) = t + (n + 1) + 1 by omega] at hw
    cases h2 : s.rowAnswers (t + d + 1) c r true with
    | false =>
      rw [sweepRows_unconfirmed h1 h2] at hr ⊢
      have hle : t + d + 2 ≤ (sweepRows s.rowAnswers d c rs (t + d + 2)).time := le_sweepRows_time ..
      have hnext := (hwaited fun k hk => hr k (by dsimp only; omega)).quietTick hl (hr (t + d + 1) hle) (by simp)
        (advance_resample_unconfirmed _ _ _ _ _ h2) (afterRow_col c r)
      rw [List.append_assoc] at hnext
      exact (columnEnds_append ..).1 (hrest _ _ hnext hr)
    | true =>
      rw [sweepRows_confirmed h1 h2] at hr ⊢
      have hend := (hwaited fun k hk => hr k (by dsimp only; omega)).deliver (key := some (r, c)) hl
        (hr (t + d + 1) (Nat.lt_succ_self _)) (by simp) (by simp) (onehot_legal c).2
        (advance_resample_confirmed _ _ _ _ _ _ _ h2) rfl
      rw [List.append_assoc evs] at hend
      exact hend

/-- The rows of a column from `r` on (42_keypad_scanner.md R122 to R125). -/
theorem rows_refine {s : State} (hl : s.ledValid = false) (hd : 1 ≤ s.params.debounceTicks) {c r : Index4}
    {rs : List Index4} (hrs : IndicesAfter r rs) :
    ∀ {t : Nat} {evs : List Event}, ScanReaches s t (s.sweeping t evs ⟨.kSample, c, r, 0, onehot c⟩) →
      (∀ k, k < (sweepRows s.rowAnswers s.params.debounceTicks c (r :: rs) t).time → (s.pinsAt k).rst = false) →
      ColumnEnds s c evs (sweepRows s.rowAnswers s.params.debounceTicks c (r :: rs) t) := by
  induction hrs with
  | last =>
    refine fun h hr => row_refines hl hd (fun t evs h' _ => ?_) h hr
    simpa [ColumnEnds, sweepRows, afterRow] using h'
  | @next r rs hlt _ ih =>
    refine fun h hr => row_refines hl hd (fun t evs h' hr' => ih ?_ hr') h hr
    rwa [afterRow, if_pos hlt] at h'

/-- One column (42_keypad_scanner.md R120, R121), when the run from its release refines the columns behind it. -/
theorem column_refines {s : State} (hl : s.ledValid = false) (hst : 1 ≤ s.params.settleTicks)
    (hd : 1 ≤ s.params.debounceTicks) {c : Index4} {cs : List Index4}
    (hrest : ∀ t evs, ScanReaches s t (s.sweeping t evs ⟨.kRelease, c, 3, 0, onehot c⟩) →
      let w := sweepCols s.rowAnswers s.params.settleTicks s.params.debounceTicks cs (t + 1)
      (∀ k, k < w.time → (s.pinsAt k).rst = false) →
        Completes s ⟨evs ++ ([.cols 0b0000#4] ++ w.events), w.key, w.time⟩)
    {t : Nat} {evs : List Event} {r : Index4}
    (h : ScanReaches s t (s.sweeping t evs ⟨.kDrive, c, r, s.params.settleTicks, 0b0000#4⟩)) :
    let w := sweepCols s.rowAnswers s.params.settleTicks s.params.debounceTicks (c :: cs) t
    (∀ k, k < w.time → (s.pinsAt k).rst = false) → Completes s ⟨evs ++ w.events, w.key, w.time⟩ := by
  intro w hr
  let q := sweepRows s.rowAnswers s.params.debounceTicks c [0, 1, 2, 3] (t + s.params.settleTicks)
  have hq (hrst : ∀ k, k < q.time → (s.pinsAt k).rst = false) :
      ColumnEnds s c (evs ++ [.cols (onehot c)]) q := by
    have hle : t + s.params.settleTicks ≤ q.time := le_sweepRows_time ..
    refine rows_refine hl hd indicesAfter_zero ?_ hrst
    obtain ⟨n, hn⟩ : ∃ n, s.params.settleTicks = n + 1 := ⟨s.params.settleTicks - 1, by omega⟩
    rw [hn] at h hle ⊢
    have hs := h.settle hl n fun k hk => hrst k (by omega)
    rwa [if_neg (onehot_legal c).2] at hs
  cases hk : q.key with
  | some k =>
    have hw : w = _ := sweepCols_of_some hk cs
    rw [hw] at hr ⊢
    simpa [ColumnEnds, hk] using hq hr
  | none =>
    have hw : w = _ := sweepCols_of_none hk cs
    rw [hw] at hr ⊢
    have hle : q.time + 1 ≤ (sweepCols s.rowAnswers s.params.settleTicks s.params.debounceTicks cs (q.time + 1)).time :=
      le_sweepCols_time ..
    have hend := hq fun k hk => hr k ((hk.trans (Nat.lt_succ_self _)).trans_le hle)
    simp only [ColumnEnds, hk] at hend
    simpa using hrest _ _ hend hr

/-- The columns from `c` on (42_keypad_scanner.md R120, R121, R126): the run from the first tick of `K_DRIVE` completes as
the procedure does. -/
theorem columns_refine {s : State} (hl : s.ledValid = false) (hst : 1 ≤ s.params.settleTicks)
    (hd : 1 ≤ s.params.debounceTicks) {c : Index4} {cs : List Index4} (hcs : IndicesAfter c cs) :
    ∀ {t : Nat} {evs : List Event} {r : Index4},
      ScanReaches s t (s.sweeping t evs ⟨.kDrive, c, r, s.params.settleTicks, 0b0000#4⟩) →
      let w := sweepCols s.rowAnswers s.params.settleTicks s.params.debounceTicks (c :: cs) t
      (∀ k, k < w.time → (s.pinsAt k).rst = false) → Completes s ⟨evs ++ w.events, w.key, w.time⟩ := by
  induction hcs with
  | last =>
    refine fun h => column_refines hl hst hd (fun t evs h' hr' => ?_) h
    exact h'.deliver (key := none) hl (hr' t (Nat.lt_succ_self t)) (by simp) (by simp) (onehot_legal 3).2
      (advance_release_last ..) rfl
  | @next c cs hlt _ ih =>
    refine fun h => column_refines hl hst hd (fun t evs h' hr' => ?_) h
    have hle : t + 1 ≤ (sweepCols s.rowAnswers s.params.settleTicks s.params.debounceTicks
      ((c + 1) :: cs) (t + 1)).time := le_sweepCols_time ..
    have hnext := h'.tick hl (hr' t hle) (by simp) (advance_release_next _ _ _ _ _ _ _ hlt)
    rw [if_neg (onehot_legal c).2.symm] at hnext
    rw [← List.append_assoc]
    exact ih hnext hr'

/-- Settles O47: the acceptance starts the first column, and column by column and row by row the ticks make the
procedure's events at the procedure's times. -/
theorem scanRefinesTheProcedure : Obligations.ScanRefinesTheProcedure := by
  intro s hp hc hl hst hd w hr
  have hle : 1 ≤ w.time := le_sweepCols_time ..
  have hstart := scanReaches_acceptance hp hl (hr 0 hle)
  rw [hc] at hstart
  have hend : Completes s w := columns_refine hl hst hd indicesAfter_zero hstart hr
  obtain ⟨valid, row, col, x, hres, a, n, hn, ha, hrun⟩ := hend
  obtain rfl : n = w.time - 1 := by omega
  refine ⟨a, _, ha, hrun, rfl, rfl, rfl, rfl, hres.symm, ?_, rfl, rfl, rfl, rfl, rfl⟩
  simp [State.sweeping]

end Sys2Proof.Machine
end

section
/-! What one step can do, said once for the statements on the registers (10_state.md): the rows of the transition table
(R36), the acceptances and the host's moves in IDLE, and from them `step_cases`. The invariant of R31 and the frames of
KEY, `done`, M, C and the build constants are short case analyses of it. -/

namespace Sys2Proof.Machine

/-! ### The rows of the transition table -/

/-- What the sequencer does on a tick of a busy phase: one constructor for each row of 10_state.md section 8. -/
inductive Transition (s : State) : State → Prop
  | settling (hp : s.phase = .kDrive) (hc : 1 < s.cnt) :
      Transition s { s with col := onehot s.c, r := 0, cnt := s.cnt - 1 }
  | settled (hp : s.phase = .kDrive) (hc : ¬ 1 < s.cnt) :
      Transition s { s with col := onehot s.c, r := 0, cnt := 0, phase := .kSample }
  | firstReadActive (hp : s.phase = .kSample) (hb : s.rowBit = true) :
      Transition s { s.log (.read s.c s.r false true) with cnt := s.params.debounceTicks, phase := .kWait }
  | firstReadNextRow (hp : s.phase = .kSample) (hb : s.rowBit = false) (hr : s.r.val < 3) :
      Transition s { s.log (.read s.c s.r false false) with r := s.r + 1 }
  | firstReadLastRow (hp : s.phase = .kSample) (hb : s.rowBit = false) (hr : ¬ s.r.val < 3) :
      Transition s { s.log (.read s.c s.r false false) with phase := .kRelease }
  | waiting (hp : s.phase = .kWait) (hc : 1 < s.cnt) : Transition s { s with cnt := s.cnt - 1 }
  | waited (hp : s.phase = .kWait) (hc : ¬ 1 < s.cnt) : Transition s { s with cnt := 0, phase := .kResample }
  | keyConfirmed (hp : s.phase = .kResample) (hb : s.rowBit = true) :
      Transition s (deliverKey true s.r s.c (s.log (.read s.c s.r true true)))
  | secondReadNextRow (hp : s.phase = .kResample) (hb : s.rowBit = false) (hr : s.r.val < 3) :
      Transition s { s.log (.read s.c s.r true false) with r := s.r + 1, phase := .kSample }
  | secondReadLastRow (hp : s.phase = .kResample) (hb : s.rowBit = false) (hr : ¬ s.r.val < 3) :
      Transition s { s.log (.read s.c s.r true false) with phase := .kRelease }
  | nextColumn (hp : s.phase = .kRelease) (hc : s.c ≠ 3) :
      Transition s { s with col := 0b0000, c := s.c + 1, cnt := s.params.settleTicks, phase := .kDrive }
  | noKey (hp : s.phase = .kRelease) (hc : s.c = 3) : Transition s (deliverKey false 0 0 s)
  | load (hp : s.phase = .lLoad) :
      Transition s (offerWord (encodePixel s.params.order s.draws s.mask[s.i] s.color) s)
  | stalled (hp : s.phase = .lPush) (hl : s.pins.ledReady = false) : Transition s s
  | nextPixel (hp : s.phase = .lPush) (hl : s.pins.ledReady = true) (hi : s.i.val < 24) :
      Transition s { s with ledValid := false, i := s.i + 1, phase := .lLoad }
  | frameSent (hp : s.phase = .lPush) (hl : s.pins.ledReady = true) (hi : ¬ s.i.val < 24) :
      Transition s { s with ledValid := false, done := true, phase := .idle }

/-- Column indices go up to 3. -/
theorem lt_three_iff (c : Index4) : c.val < 3 ↔ c ≠ 3 := by
  revert c
  decide

/-- In IDLE the sequencer does nothing of its own. -/
theorem advance_of_idle {s : State} (hp : s.phase = .idle) : advance s = s := by
  simp [advance, hp]

/-- In a busy phase the sequencer takes a row of the transition table. -/
theorem advance_transition {s : State} (hp : s.phase ≠ .idle) : Transition s (advance s) := by
  unfold advance
  split
  case h_1 h => exact absurd h hp
  case h_2 h =>
    unfold driveTick
    split
    · exact .settling h ‹_›
    · exact .settled h ‹_›
  case h_3 h =>
    cases hb : s.rowBit with
    | true => exact .firstReadActive h hb
    | false =>
      rw [sampleTick_false]
      split
      · exact .firstReadNextRow h hb ‹_›
      · exact .firstReadLastRow h hb ‹_›
  case h_4 h =>
    unfold waitTick
    split
    · exact .waiting h ‹_›
    · exact .waited h ‹_›
  case h_5 h =>
    cases hb : s.rowBit with
    | true => exact .keyConfirmed h hb
    | false =>
      rw [resampleTick_false]
      split
      · exact .secondReadNextRow h hb ‹_›
      · exact .secondReadLastRow h hb ‹_›
  case h_6 h =>
    unfold releaseTick
    split
    case isTrue hc => exact .nextColumn h ((lt_three_iff _).1 hc)
    case isFalse hc => exact .noKey h (not_not.1 fun hne => hc ((lt_three_iff _).2 hne))
  case h_7 h => exact .load h
  case h_8 h =>
    cases hl : s.pins.ledReady with
    | false => exact .stalled h hl
    | true =>
      unfold pushTick
      rw [if_pos rfl]
      split
      · exact .nextPixel h hl ‹_›
      · exact .frameSent h hl ‹_›

/-! ### What a step can do in IDLE -/

/-- The commands that the block accepts in IDLE, each with what its acceptance writes (10_state.md R32). -/
inductive Accepts : Instr → (State → State) → Prop
  | nop : Accepts .nop id
  | reserved : Accepts .reserved id
  | scan : Accepts .scan acceptScan
  | render (mask : Mask) (color : Color) : Accepts (.render mask color) (acceptRender mask color)

/-- What a host move writes: the host's own fields and the count of draws (log 6). -/
structure HostFields where
  hostMode : HostMode
  hostKey : Option Byte
  program : List HostOp
  sleep : Nat
  draws : Nat

/-- `s` with the host's fields at `x`; everything of the block, the inputs and the history are as in `s`. -/
def State.withHost (s : State) (x : HostFields) : State :=
  { s with hostMode := x.hostMode, hostKey := x.hostKey, program := x.program, sleep := x.sleep, draws := x.draws }

/-- What a step without reset does in IDLE, from the state in which the host has taken the head off its program. -/
inductive IdleStep (u : State) : State → Prop
  /-- a tick on which no command is accepted -/
  | pass : IdleStep u (endTick u u.clearDone)
  | accept {i : Instr} {acc : State → State} (ha : Accepts i acc) :
      IdleStep u (endTick u ((acc u.clearDone).log (.accept i)))
  /-- a host sequence, or a move of the host between its operations -/
  | host (x : HostFields) : IdleStep u (u.withHost x)

/-- In IDLE a tick on which nothing is taken up only lowers `done`. -/
theorem tickAlone_of_idle {u : State} (hr : u.pins.rst = false) (hp : u.phase = .idle) :
    tickAlone u = endTick u u.clearDone := by
  rw [tickAlone, clock_of_run _ _ hr, advance_of_idle (s := u.clearDone) hp]

/-- A command offered in IDLE without reset is accepted. -/
theorem idleStep_of_offer {i : Instr} {acc : State → State} (ha : Accepts i acc) {u t : State}
    (hr : u.pins.rst = false) (hp : u.phase = .idle) (h : offer i acc u = .next t) : IdleStep u t := by
  rw [offer, clock_of_run _ _ hr, u.clearDone_phase, if_pos hp] at h
  cases h
  exact .accept ha

/-- An access of a busy phase, taken up in IDLE, lets the tick pass (log 9). -/
theorem idleStep_of_access {here : Bool} {f : State → State} {u t : State} (hr : u.pins.rst = false)
    (hp : u.phase = .idle) (hh : here = false) (h : access here f u = .next t) : IdleStep u t := by
  rw [hh, access_elsewhere, tickAlone_of_idle hr hp] at h
  cases h
  exact .pass

/-- Whatever operation is taken up in IDLE without reset, the step is one of `IdleStep`. -/
theorem exec_idleStep {i : Instr} {u t : State} (hr : u.pins.rst = false) (hp : u.phase = .idle)
    (h : exec i u = .next t) : IdleStep u t := by
  cases i with
  | nop => exact idleStep_of_offer .nop hr hp h
  | scan => exact idleStep_of_offer .scan hr hp h
  | render mask color => exact idleStep_of_offer (.render mask color) hr hp h
  | reserved => exact idleStep_of_offer .reserved hr hp h
  | fill color => exact idleStep_of_offer (.render Mask.ones color) hr hp h
  | off => exact idleStep_of_offer (.render Mask.zeros Color.black) hr hp h
  | encode red green blue => exact idleStep_of_access hr hp (by rw [hp]; rfl) h
  | coldrive v =>
    simp only [exec, execColdrive] at h
    split at h
    · split at h <;> exact idleStep_of_access hr hp (by rw [hp]; rfl) h
    · cases h
  | rowread active =>
    simp only [exec, execRowread, hp] at h
    exact idleStep_of_access hr hp rfl h
  | keyresult valid row col =>
    simp only [exec, execKeyresult] at h
    split at h
    · split at h <;> exact idleStep_of_access hr hp (by rw [hp]; rfl) h
    · cases h
  | play anim =>
    simp only [exec, execPlay] at h
    split at h
    · cases h
    · cases h
      exact .host ⟨u.hostMode, u.hostKey, _, u.sleep, u.draws⟩
  | awaitRelease =>
    cases h
    exact .host ⟨u.hostMode, u.hostKey, _, u.sleep, u.draws⟩
  | dispatch table unmapped =>
    cases h
    exact .host ⟨.idle, u.hostKey, _, u.sleep, u.draws⟩
  | pause ms =>
    cases h
    exact .host ⟨u.hostMode, u.hostKey, u.program, _, u.draws⟩

/-- A move of the host between its operations writes the host's fields only. -/
theorem hostMove_idleStep (op : HostOp) (u : State) : IdleStep u (hostMove op u) := by
  cases op with
  | issue i => exact .host ⟨u.hostMode, u.hostKey, _, u.sleep, u.draws⟩
  | untilNone =>
    simp only [hostMove, untilNone]
    split
    · exact .host ⟨u.hostMode, _, _, u.sleep, u.draws⟩
    · exact .host ⟨u.hostMode, _, u.program, u.sleep, u.draws⟩
  | branchOnKey table unmapped =>
    simp only [hostMove, branchOnKey]
    split
    · exact .host ⟨u.hostMode, _, _, u.sleep, u.draws⟩
    · exact .host ⟨.keyDetected, _, _, u.sleep, u.draws⟩
  | enter m => exact .host ⟨m, u.hostKey, u.program, u.sleep, u.draws⟩
  | melody => exact .host ⟨u.hostMode, u.hostKey, u.program, _, _⟩

/-! ### What a step can do -/

/-- A step of the machine: a reset tick, a tick of a busy phase, or a step in IDLE. -/
inductive StepTo (s : State) : State → Prop
  | reset (hr : s.pins.rst = true) : StepTo s (endTick s s.resetBlock)
  | busy (hr : s.pins.rst = false) (hp : s.phase ≠ .idle) {v : State} (hv : Transition s.clearDone v) :
      StepTo s (endTick s v)
  | idle (hr : s.pins.rst = false) (hp : s.phase = .idle) (ops : List HostOp) {t : State}
      (ht : IdleStep (s.setProgram ops) t) : StepTo s t

/-- Everything a step in IDLE can do. -/
theorem step_idleStep {s t : State} (hr : s.pins.rst = false) (hp : s.phase = .idle) (h : step s = .next t) :
    ∃ ops, IdleStep (s.setProgram ops) t := by
  obtain hf | ⟨i, rest, -, hf⟩ | ⟨op, rest, -, hf⟩ | ⟨-, -, hf⟩ := hostFetch_cases s <;>
    rw [step, fetch_of_idle s hr hp, hf] at h
  · cases h
    refine ⟨s.program, ?_⟩
    rw [tickAlone_of_idle hr hp]
    exact .pass
  · exact ⟨rest, exec_idleStep hr hp h⟩
  · cases h
    exact ⟨rest, hostMove_idleStep op _⟩
  · exact ⟨s.program, exec_idleStep hr hp h⟩

/-- Everything a step can do. -/
theorem step_cases {s t : State} (h : step s = .next t) : StepTo s t := by
  cases hr : s.pins.rst with
  | true =>
    rw [step_of_rst s hr, tickAlone, clock_of_rst _ s hr] at h
    cases h
    exact .reset hr
  | false =>
    by_cases hp : s.phase = .idle
    · obtain ⟨ops, ht⟩ := step_idleStep hr hp h
      exact .idle hr hp ops ht
    · rw [step_of_busy s hp, tickAlone, clock_of_run _ s hr] at h
      cases h
      exact .busy hr hp (advance_transition hp)

/-! ### What the transition table writes and leaves unchanged -/

section Frames
variable {s t : State}

/-- The transition table speaks of busy phases only. -/
theorem Transition.busy (h : Transition s t) : s.phase ≠ .idle := by
  cases h <;> simp [*]

/-- No row writes a build constant (10_state.md R27). -/
theorem Transition.params (h : Transition s t) : t.params = s.params := by
  cases h <;> rfl

/-- No row writes M or C (10_state.md R22, R23). -/
theorem Transition.operands (h : Transition s t) : t.mask = s.mask ∧ t.color = s.color := by
  cases h <;> exact ⟨rfl, rfl⟩

/-- `done` is set by exactly the rows that lead back to IDLE (10_state.md R20). -/
theorem Transition.done_iff (h : Transition s t) (hd : s.done = false) : t.done = true ↔ t.phase = .idle := by
  cases h <;> simp [*]

/-- KEY is written by the two rows that end a sweep, with `done` (10_state.md R18). -/
theorem Transition.key_eq (h : Transition s t) :
    if s.phase = .kResample ∧ s.rowBit = true then t.key = (true, s.r, s.c) ∧ t.done = true
    else if s.phase = .kRelease ∧ s.c = 3 then t.key = (false, 0, 0) ∧ t.done = true
    else t.key = s.key := by
  cases h <;> simp [*, State.key]

/-- A word is on offer in `L_PUSH` only (10_state.md R31 d). -/
theorem Transition.ledValid_iff (h : Transition s t) (hs : s.ledValid = true ↔ s.phase = .lPush) :
    t.ledValid = true ↔ t.phase = .lPush := by
  cases h with
  | load hp => simp
  | nextPixel hp => simp
  | frameSent hp => simp
  | stalled hp => exact hs
  | _ => simp_all

/-- A row writes the low byte of a word, if at all, as `LOW_BYTE` (30_encoding.md R61). -/
theorem Transition.lowByte (h : Transition s t) (hs : s.ledWord.extractLsb' 0 8 = lowByte) :
    t.ledWord.extractLsb' 0 8 = lowByte := by
  cases h with
  | load hp => exact (packWord_bytes _ _ _ _).2.2.2
  | _ => exact hs

end Frames

/-! ### The invariant (10_state.md R31) -/

/-- `State.invariant`, part by part. -/
structure Invariant (s : State) : Prop where
  settle : 1 ≤ s.params.settleTicks
  debounce : 1 ≤ s.params.debounceTicks
  cols : s.colsOk = true
  led : s.ledValid = true ↔ s.phase = .lPush
  done : s.done = true → s.phase = .idle
  cnt : s.cnt ≤ max s.params.debounceTicks s.params.settleTicks
  key : legalKey s.keyValid s.keyRow s.keyCol = true
  low : s.ledWord.extractLsb' 0 8 = lowByte

/-- The Boolean invariant of the statements is the conjunction of the parts. -/
theorem invariant_iff (s : State) : s.invariant = true ↔ Invariant s := by
  have hled : s.ledValid = (s.phase == .lPush) ↔ (s.ledValid = true ↔ s.phase = .lPush) := by
    rw [Bool.eq_iff_iff, beq_iff_eq]
  have hdone : (s.done = false ∨ s.phase = .idle) ↔ (s.done = true → s.phase = .idle) := by
    cases s.done <;> simp
  simp only [State.invariant, Bool.and_eq_true, decide_eq_true_eq, beq_iff_eq, Bool.or_eq_true, Bool.not_eq_true',
    hled, hdone]
  constructor
  · rintro ⟨⟨⟨⟨⟨⟨⟨settle, debounce⟩, cols⟩, led⟩, done⟩, cnt⟩, key⟩, low⟩
    exact ⟨settle, debounce, cols, led, done, cnt, key, low⟩
  · rintro ⟨settle, debounce, cols, led, done, cnt, key, low⟩
    exact ⟨⟨⟨⟨⟨⟨⟨settle, debounce⟩, cols⟩, led⟩, done⟩, cnt⟩, key⟩, low⟩

/-- The columns in `K_DRIVE`: still low on the first tick, then the column of `c` (10_state.md R31 b). -/
theorem colsOk_kDrive {s : State} (hp : s.phase = .kDrive) : s.colsOk = true ↔
    1 ≤ s.cnt ∧ s.cnt ≤ s.params.settleTicks ∧
      s.col = if s.cnt = s.params.settleTicks then 0b0000#4 else onehot s.c := by
  by_cases hc : s.cnt = s.params.settleTicks <;> simp [State.colsOk, hp, hc, and_assoc]

/-- The columns in `K_WAIT`, with the bounds of the debounce count. -/
theorem colsOk_kWait {s : State} (hp : s.phase = .kWait) : s.colsOk = true ↔
    s.col = onehot s.c ∧ 1 ≤ s.cnt ∧ s.cnt ≤ s.params.debounceTicks := by
  simp [State.colsOk, hp, and_assoc]

/-- Every row of the transition table keeps the columns in step with the sequencer (10_state.md R31 a to c). -/
theorem Transition.colsOk {s t : State} (h : Transition s t) (hs : Invariant s) : t.colsOk = true := by
  have hcols := hs.cols
  cases h with
  | settling hp hc =>
    obtain ⟨-, hle, -⟩ := (colsOk_kDrive hp).1 hcols
    have hne : s.cnt - 1 ≠ s.params.settleTicks := by omega
    exact (colsOk_kDrive (by exact hp)).2 ⟨Nat.le_sub_one_of_lt hc, (Nat.sub_le _ _).trans hle, (if_neg hne).symm⟩
  | settled => simp [State.colsOk]
  | firstReadActive hp =>
    have hcol : s.col = onehot s.c := by simpa [State.colsOk, hp] using hcols
    exact (colsOk_kWait rfl).2 ⟨hcol, hs.debounce, le_refl _⟩
  | waiting hp hc =>
    obtain ⟨hcol, -, hle⟩ := (colsOk_kWait hp).1 hcols
    exact (colsOk_kWait (by exact hp)).2 ⟨hcol, Nat.le_sub_one_of_lt hc, (Nat.sub_le _ _).trans hle⟩
  | waited hp => simpa [State.colsOk] using ((colsOk_kWait hp).1 hcols).1
  | nextColumn => exact (colsOk_kDrive rfl).2 ⟨hs.settle, le_refl _, (if_pos rfl).symm⟩
  | keyConfirmed => rfl
  | noKey => rfl
  | stalled => exact hcols
  | firstReadNextRow hp => simpa [State.colsOk, hp] using hcols
  | firstReadLastRow hp => simpa [State.colsOk, hp] using hcols
  | secondReadNextRow hp => simpa [State.colsOk, hp] using hcols
  | secondReadLastRow hp => simpa [State.colsOk, hp] using hcols
  | load hp => simpa [State.colsOk, hp] using hcols
  | nextPixel hp => simpa [State.colsOk, hp] using hcols
  | frameSent hp => simpa [State.colsOk, hp] using hcols

/-- The counter is loaded with one of the two counts, and otherwise only falls (10_state.md R31 g). -/
theorem Transition.cnt_le {s t : State} (h : Transition s t)
    (hs : s.cnt ≤ max s.params.debounceTicks s.params.settleTicks) :
    t.cnt ≤ max t.params.debounceTicks t.params.settleTicks := by
  cases h with
  | settling => exact (Nat.sub_le _ _).trans hs
  | waiting => exact (Nat.sub_le _ _).trans hs
  | settled => exact Nat.zero_le _
  | waited => exact Nat.zero_le _
  | firstReadActive => exact le_max_left _ _
  | nextColumn => exact le_max_right _ _
  | _ => exact hs

/-- A row leaves a legal KEY code in KEY (30_encoding.md R72). -/
theorem Transition.legalKey {s t : State} (h : Transition s t) (hs : legalKey s.keyValid s.keyRow s.keyCol = true) :
    legalKey t.keyValid t.keyRow t.keyCol = true := by
  cases h with
  | keyConfirmed => rfl
  | noKey => rfl
  | _ => exact hs

/-- Every row of the transition table keeps the invariant. -/
theorem Transition.keeps_invariant {s t : State} (h : Transition s t) (hs : Invariant s) : Invariant t where
  settle := h.params ▸ hs.settle
  debounce := h.params ▸ hs.debounce
  cols := h.colsOk hs
  led := h.ledValid_iff hs.led
  done := (h.done_iff (Bool.eq_false_iff.2 fun hd => h.busy (hs.done hd))).1
  cnt := h.cnt_le hs.cnt
  key := h.legalKey hs.key
  low := h.lowByte hs.low

/-- The bookkeeping of a tick writes nothing that the invariant speaks of. -/
theorem Invariant.endTick {t : State} (h : Invariant t) (s : State) : Invariant (endTick s t) := { h with }

/-- Neither does the log of events. -/
theorem Invariant.log {s : State} (h : Invariant s) (e : Event) : Invariant (s.log e) := { h with }

/-- `done` may fall at any time. -/
theorem Invariant.clearDone {s : State} (h : Invariant s) : Invariant s.clearDone := { h with done := by simp }

/-- The registers after reset meet the invariant, whatever the build constants are. -/
theorem Invariant.resetBlock {s : State} (h : Invariant s) : Invariant s.resetBlock :=
  { h with
    cols := rfl, led := by simp, done := fun _ => rfl, cnt := Nat.zero_le _, key := rfl, low := rfl }

/-- What the acceptance of a command writes keeps the invariant. -/
theorem Accepts.keeps_invariant {i : Instr} {acc : State → State} (ha : Accepts i acc) {u : State}
    (hp : u.phase = .idle) (hd : u.done = false) (h : Invariant u) : Invariant (acc u) := by
  have hled : u.ledValid = false := by simp [← Bool.not_eq_true, h.led, hp]
  have hcol : u.col = 0b0000#4 := by simpa [State.colsOk, hp] using h.cols
  cases ha with
  | nop => exact h
  | reserved => exact h
  | scan =>
    exact { h with
      cols := by simp [State.colsOk, hcol, h.settle]
      led := by simp [hled]
      done := by simp [hd]
      cnt := le_max_right _ _ }
  | render mask color =>
    exact { h with
      cols := by simp [State.colsOk, hcol]
      led := by simp [hled]
      done := by simp [hd] }

/-- Every step in IDLE keeps the invariant. -/
theorem IdleStep.keeps_invariant {u t : State} (h : IdleStep u t) (hp : u.phase = .idle) (hu : Invariant u) :
    Invariant t := by
  cases h with
  | pass => exact hu.clearDone.endTick u
  | @accept i acc ha =>
    have hacc : Invariant (acc u.clearDone) := ha.keeps_invariant hp rfl hu.clearDone
    exact (hacc.log (.accept i)).endTick u
  | host x => exact { hu with }

/-- Settles O31: a reset tick brings the reset values, a busy tick a row of the transition table, and in IDLE only an
acceptance writes registers of the block. -/
theorem everyStepKeepsTheInvariant : Obligations.EveryStepKeepsTheInvariant := by
  intro s t hs h
  rw [invariant_iff] at hs ⊢
  cases step_cases h with
  | reset => exact hs.resetBlock.endTick s
  | busy _ _ hv => exact (hv.keeps_invariant hs.clearDone).endTick s
  | idle _ hp ops ht => exact ht.keeps_invariant hp { hs with }

/-- Settles O30: the reset values are concrete. -/
theorem invariantHoldsAtReset : Obligations.InvariantHoldsAtReset := by
  unfold Obligations.InvariantHoldsAtReset
  decide

/-- Settles O32: `CNT_W` is the bit length of the larger of the two counts that bound `cnt`. -/
theorem counterFitsItsWidth : Obligations.CounterFitsItsWidth := by
  intro s hs
  have hcnt := ((invariant_iff s).1 hs).cnt
  exact hcnt.trans_lt Nat.lt_log2_self

/-! ### What is written by which step -/

/-- A step in IDLE writes neither the build constants nor KEY. -/
theorem IdleStep.params_key {u t : State} (h : IdleStep u t) : t.params = u.params ∧ t.key = u.key := by
  cases h with
  | pass => exact ⟨rfl, rfl⟩
  | accept ha => cases ha <;> exact ⟨rfl, rfl⟩
  | host x => exact ⟨rfl, rfl⟩

/-- Settles O34: neither a reset, nor a row of the transition table, nor an acceptance, nor the host writes them. -/
theorem buildConstantsNeverChange : Obligations.BuildConstantsNeverChange := by
  intro s t h
  cases step_cases h with
  | reset => rfl
  | busy _ _ hv => exact hv.params
  | idle _ _ ops ht => exact ht.params_key.1

/-- Settles O35: the two rows of the transition table that end a sweep write KEY, and nothing else does. -/
theorem resultRegisterWrittenOnlyAtCompletion : Obligations.ResultRegisterWrittenOnlyAtCompletion := by
  refine ⟨rfl, fun s t hr h => ?_⟩
  cases step_cases h with
  | reset hr' => simp [hr] at hr'
  | busy _ _ hv => exact hv.key_eq
  | idle _ hp ops ht => simpa [hp] using ht.params_key.2

/-- Settles O36: a tick lowers `done`, and only the rows of the transition table that lead back to IDLE set it. -/
theorem doneMarksCompletionOnly : Obligations.DoneMarksCompletionOnly := by
  refine ⟨rfl, fun s t hr h htick => ?_⟩
  cases step_cases h with
  | reset hr' => simp [hr] at hr'
  | busy _ hp hv => simpa [hp] using hv.done_iff rfl
  | idle _ hp ops ht =>
    have hd : t.done = false := by
      cases ht with
      | pass => rfl
      | accept ha => cases ha <;> rfl
      | host x => simp [State.withHost] at htick
    simp [hd, hp]

/-- Settles O37: of all steps without reset only the acceptance of a RENDER writes M and C, and the wires show nothing
else than a transfer on its tick. -/
theorem operandsWrittenOnlyByRender : Obligations.OperandsWrittenOnlyByRender := by
  intro s t hr h hne
  cases step_cases h with
  | reset hr' => simp [hr] at hr'
  | busy _ _ hv => simp [hv.operands] at hne
  | idle _ hp ops ht =>
    cases ht with
    | pass => simp at hne
    | host x => simp [State.withHost] at hne
    | accept ha =>
      cases ha with
      | nop => simp at hne
      | reserved => simp at hne
      | scan => simp at hne
      | render mask color =>
        refine ⟨hp, rfl, rfl, ?_⟩
        have hquiet := wireEvents_quiet (s.setProgram ops)
          ((acceptRender mask color (s.setProgram ops).clearDone).log (.accept (.render mask color))) rfl rfl
        simp [hquiet]

/-! ### Row inputs (10_state.md R32) -/

/-- The same state with the row inputs of this tick at `rows`. -/
def State.setRows (s : State) (rows : BitVec 4) : State :=
  { s with inputs := { s.pins with rowIn := rows } :: s.inputs.tail }

/-- With its rows at `rows`, this tick reads no row bit, or the same one. -/
def State.RowsIgnored (s : State) (rows : BitVec 4) : Prop :=
  (s.phase ≠ .kSample ∧ s.phase ≠ .kResample) ∨ readRow rows s.r = s.rowBit

/-- What a host fetch gives, with the row inputs of its state at `rows`. -/
def Fetched.setRows (rows : BitVec 4) : Fetched → Fetched
  | .run i s => .run i (s.setRows rows)
  | .host op s => .host op (s.setRows rows)
  | .tick => .tick

section Rows
variable {s u t : State} {rows : BitVec 4}

@[simp] theorem State.setRows_phase : (s.setRows rows).phase = s.phase := rfl
@[simp] theorem State.setRows_sleep : (s.setRows rows).sleep = s.sleep := rfl
@[simp] theorem State.setRows_program : (s.setRows rows).program = s.program := rfl
@[simp] theorem State.setRows_clearDone : (s.setRows rows).clearDone = s.clearDone.setRows rows := rfl

/-- The sequencer sees no row bit but the one it reads. -/
theorem advance_setRows (h : s.RowsIgnored rows) : advance (s.setRows rows) = (advance s).setRows rows := by
  have hbit (hp : s.phase = .kSample ∨ s.phase = .kResample) : (s.setRows rows).rowBit = s.rowBit :=
    h.resolve_left fun hne => hp.elim hne.1 hne.2
  rw [advance, advance, State.setRows_phase]
  split
  case h_1 => rfl
  case h_2 =>
    rw [driveTick_eq, driveTick_eq]
    rfl
  case h_3 hp =>
    rw [hbit (.inl hp)]
    cases s.rowBit with
    | true => rfl
    | false =>
      rw [sampleTick_false, sampleTick_false, apply_ite (State.setRows · rows)]
      rfl
  case h_4 =>
    rw [waitTick_eq, waitTick_eq]
    rfl
  case h_5 hp =>
    rw [hbit (.inr hp)]
    cases s.rowBit with
    | true => rfl
    | false =>
      rw [resampleTick_false, resampleTick_false, apply_ite (State.setRows · rows)]
      rfl
  case h_6 =>
    unfold releaseTick
    rw [apply_ite (State.setRows · rows)]
    rfl
  case h_7 => rfl
  case h_8 =>
    unfold pushTick
    rw [apply_ite (State.setRows · rows), apply_ite (State.setRows · rows)]
    rfl

/-- A tick whose sequencer does the same with both row inputs is the same tick. -/
theorem clock_setRows {f : State → State} (hf : f (s.clearDone.setRows rows) = (f s.clearDone).setRows rows) :
    clock f (s.setRows rows) = clock f s := by
  cases hr : s.pins.rst with
  | true =>
    rw [clock_of_rst f s hr, clock_of_rst f (s.setRows rows) hr]
    rfl
  | false =>
    rw [clock_of_run f s hr, clock_of_run f (s.setRows rows) hr, State.setRows_clearDone, hf]
    rfl

theorem tickAlone_setRows (h : s.RowsIgnored rows) : tickAlone (s.setRows rows) = tickAlone s :=
  clock_setRows (advance_setRows h)

theorem rowsIgnored_of_idle (hp : s.phase = .idle) : s.RowsIgnored rows := by
  simp [State.RowsIgnored, hp]

/-- The acceptance of a command sees no row input. -/
theorem offer_setRows {i : Instr} {acc : State → State} (ha : Accepts i acc) (hp : u.phase = .idle) :
    offer i acc (u.setRows rows) = offer i acc u := by
  refine congrArg Host.Outcome.next (clock_setRows ?_)
  rw [State.setRows_phase, State.clearDone_phase, if_pos hp, if_pos hp]
  cases ha <;> rfl

/-- An access of a busy phase, taken up in IDLE, sees no row input. -/
theorem access_setRows {here : Bool} {f : State → State} (hp : u.phase = .idle) (hh : here = false) :
    access here f (u.setRows rows) = access here f u := by
  rw [hh, access_elsewhere, access_elsewhere, tickAlone_setRows (rowsIgnored_of_idle hp)]

/-- An operation that takes a tick sees no row input in IDLE. -/
theorem exec_setRows {i : Instr} (hi : takesTick i = true) (hp : u.phase = .idle) :
    exec i (u.setRows rows) = exec i u := by
  have hp' : (u.setRows rows).phase = .idle := hp
  cases i with
  | nop => exact offer_setRows .nop hp
  | scan => exact offer_setRows .scan hp
  | render mask color => exact offer_setRows (.render mask color) hp
  | reserved => exact offer_setRows .reserved hp
  | fill color => exact offer_setRows (.render Mask.ones color) hp
  | off => exact offer_setRows (.render Mask.zeros Color.black) hp
  | encode red green blue =>
    simp only [exec, execEncode, hp, hp']
    exact access_setRows hp rfl
  | coldrive v =>
    simp only [exec, execColdrive, hp, hp']
    split
    · split <;> exact access_setRows hp rfl
    · rfl
  | rowread active =>
    simp only [exec, execRowread, hp, hp']
    exact access_setRows hp rfl
  | keyresult valid row col =>
    simp only [exec, execKeyresult, hp, hp']
    split
    · split <;> exact access_setRows hp rfl
    · rfl
  | play anim => cases hi
  | awaitRelease => cases hi
  | dispatch table unmapped => cases hi
  | pause ms => cases hi

/-- A host sequence takes no time (log 6). -/
theorem exec_tick_of_not_takesTick {i : Instr} (hi : takesTick i = false) (h : exec i u = .next t) :
    t.tick = u.tick := by
  cases i with
  | play anim =>
    simp only [exec, execPlay] at h
    split at h
    · cases h
    · cases h
      rfl
  | awaitRelease =>
    cases h
    rfl
  | dispatch table unmapped =>
    cases h
    rfl
  | pause ms =>
    cases h
    rfl
  | _ => cases hi

/-- The host's choice in IDLE sees no row input. -/
theorem hostFetch_setRows : hostFetch (s.setRows rows) = (hostFetch s).setRows rows := by
  rw [hostFetch, hostFetch, State.setRows_sleep, State.setRows_program, apply_ite (Fetched.setRows rows)]
  congr 1
  cases s.program with
  | nil =>
    rw [apply_ite (Fetched.setRows rows)]
    rfl
  | cons op rest => cases op <;> rfl

/-- A step in IDLE that is a tick sees no row input. -/
theorem step_setRows_of_idle (hr : s.pins.rst = false) (hp : s.phase = .idle) (h : step s = .next t)
    (ht : t.tick = s.tick + 1) : step (s.setRows rows) = .next t := by
  have hrun {i : Instr} {ops : List HostOp} (h : exec i (s.setProgram ops) = .next t) :
      exec i ((s.setProgram ops).setRows rows) = .next t := by
    cases hi : takesTick i with
    | true => rwa [exec_setRows hi (u := s.setProgram ops) hp]
    | false =>
      have htick : t.tick = s.tick := exec_tick_of_not_takesTick (u := s.setProgram ops) hi h
      omega
  rw [step, fetch_of_idle s hr hp] at h
  rw [step, fetch_of_idle (s.setRows rows) hr hp, hostFetch_setRows]
  obtain hf | ⟨i, rest, -, hf⟩ | ⟨op, rest, -, hf⟩ | ⟨-, -, hf⟩ := hostFetch_cases s <;> rw [hf] at h ⊢
  · cases h
    exact congrArg _ (tickAlone_setRows (rowsIgnored_of_idle hp))
  · exact hrun h
  · cases h
    obtain ⟨-, -, -, -, -, -, -, -, -, -, -, -, -, -, htick, -⟩ := hostMove_keeps op (s.setProgram rest)
    simp [htick] at ht
  · exact hrun (ops := s.program) h

/-- A step that is a tick sees no row bit but the one it reads. -/
theorem step_setRows (hrows : s.RowsIgnored rows) (h : step s = .next t) (ht : t.tick = s.tick + 1) :
    step (s.setRows rows) = .next t := by
  by_cases hp : s.phase = .idle
  · cases hr : s.pins.rst with
    | true =>
      rw [step_of_rst s hr] at h
      rwa [step_of_rst (s.setRows rows) hr, tickAlone_setRows hrows]
    | false => exact step_setRows_of_idle hr hp h ht
  · rw [step_of_busy s hp] at h
    rwa [step_of_busy (s.setRows rows) hp, tickAlone_setRows hrows]

end Rows

/-- Settles O39: the tick makes no use of the row inputs but in `rowBit`, which is as it was. -/
theorem onlyTheRowBeingReadMatters : Obligations.OnlyTheRowBeingReadMatters := by
  intro s t p ins rows hin hrows h ht
  have hpins : s.pins = p := by simp [State.pins, hin]
  have hset : s.setRows rows = { s with inputs := { p with rowIn := rows } :: ins } := by
    simp [State.setRows, hpins, hin]
  rw [← hset]
  refine step_setRows (hrows.imp_right fun hbit => ?_) h ht
  rwa [State.rowBit, hpins]

end Sys2Proof.Machine
end

section
/-! The accesses and deliveries of the sequencer (20_memory.md): what exec of each of them is, that it is the
sequencer's own tick away from its phase and for the operands the phase itself gives, and the ideal matrix of R53. -/

namespace Sys2Proof.Machine

/-! ### Exec of an access as `access` (log 9) -/

section Accesses
variable (s : State)

/-- COLDRIVE of a one-hot vector is the access of `K_DRIVE`. -/
theorem exec_coldrive_onehot (k : Index4) :
    exec (.coldrive (onehot k)) s = access (s.phase == .kDrive) (driveTick (onehot k)) s := by
  obtain ⟨hlegal, hne⟩ := onehot_legal k
  rw [exec, execColdrive, if_pos hlegal, if_neg hne]

/-- COLDRIVE of the zero vector is the access of `K_RELEASE`. -/
theorem exec_coldrive_zero : exec (.coldrive 0b0000#4) s = access (s.phase == .kRelease) releaseTick s := rfl

/-- ROWREAD in `K_RESAMPLE` is the second read. -/
theorem exec_rowread_of_kResample (b : Bool) (hp : s.phase = .kResample) :
    exec (.rowread b) s = access true (resampleTick b) s := if_pos hp

/-- ROWREAD in any other phase is the access of `K_SAMPLE`. -/
theorem exec_rowread_of_ne_kResample (b : Bool) (hp : s.phase ≠ .kResample) :
    exec (.rowread b) s = access (s.phase == .kSample) (sampleTick b) s := if_neg hp

/-- KEYRESULT of a key is the delivery of `K_RESAMPLE`. -/
theorem exec_keyresult_key (row col : Index4) :
    exec (.keyresult true row col) s = access (s.phase == .kResample)
      (fun t => deliverKey true row col (t.log (.read t.c t.r true true))) s := rfl

/-- KEYRESULT of `None` is the delivery of `K_RELEASE` in the last column. -/
theorem exec_keyresult_none : exec (.keyresult false 0 0) s =
    access (s.phase == .kRelease && s.c == 3) (deliverKey false 0 0) s := rfl

/-- ENCODE is the access of `L_LOAD`. -/
theorem exec_encode (red green blue : Intensity) : exec (.encode red green blue) s =
    access (s.phase == .lLoad) (fun t => offerWord (encodeWord t.params.order t.draws red green blue) t) s := rfl

end Accesses

/-- Away from its phase, or where it does what the sequencer does, an access is the tick without it. -/
theorem access_eq_tickAlone {here : Bool} {f : State → State} {s : State}
    (h : here = true → f s.clearDone = advance s.clearDone) : access here f s = .next (tickAlone s) := by
  cases here with
  | false => exact access_elsewhere f s
  | true => rw [access_here, tickAlone, clock_congr f advance s (h rfl)]

/-- An access offered in another phase than its own passes the tick. -/
theorem access_of_phase_ne {p : Phase} {f : State → State} {s : State} (hp : s.phase ≠ p) :
    access (s.phase == p) f s = .next (tickAlone s) :=
  access_eq_tickAlone fun h => absurd (eq_of_beq h) hp

/-- Settles O16: away from its phase each of them is an `access` that is not made. -/
theorem accessesElsewherePassTheTick : Obligations.AccessesElsewherePassTheTick := by
  intro s
  refine ⟨fun hp k => ?_, fun hp => ?_, fun hs hr b => ?_, fun hp row col => ?_, fun hp => ?_,
    fun hp red green blue => ?_⟩
  · rw [exec_coldrive_onehot, access_of_phase_ne hp]
  · rw [exec_coldrive_zero, access_of_phase_ne hp]
  · rw [exec_rowread_of_ne_kResample s b hr, access_of_phase_ne hs]
  · rw [exec_keyresult_key, access_of_phase_ne hp]
  · rw [exec_keyresult_none]
    refine access_eq_tickAlone fun h => ?_
    obtain ⟨hphase, hcol⟩ := Bool.and_eq_true_iff.1 h
    exact absurd (eq_of_beq hcol) (hp.resolve_left (not_not.2 (eq_of_beq hphase)))
  · rw [exec_encode, access_of_phase_ne hp]

/-! ### The access that a phase makes (10_state.md section 8) -/

section Phases
variable {s : State}

/-- COLDRIVE of the column that `K_DRIVE` drives is the sequencer's tick. -/
theorem exec_coldrive_of_kDrive (hp : s.phase = .kDrive) :
    exec (.coldrive (onehot s.c)) s = .next (tickAlone s) := by
  rw [exec_coldrive_onehot]
  exact access_eq_tickAlone fun _ => by simp [advance, hp]

/-- ROWREAD of the row bit in `K_SAMPLE` is the sequencer's tick. -/
theorem exec_rowread_of_kSample (hp : s.phase = .kSample) : exec (.rowread s.rowBit) s = .next (tickAlone s) := by
  rw [exec_rowread_of_ne_kResample s s.rowBit (by simp [hp])]
  exact access_eq_tickAlone fun _ => by simp [advance, hp]

/-- ROWREAD of the row bit in `K_RESAMPLE` is the sequencer's tick, also where the bit confirms a key. -/
theorem exec_rowread_rowBit_of_kResample (hp : s.phase = .kResample) :
    exec (.rowread s.rowBit) s = .next (tickAlone s) := by
  rw [exec_rowread_of_kResample s s.rowBit hp]
  exact access_eq_tickAlone fun _ => by simp [advance, hp]

/-- COLDRIVE of the zero vector in `K_RELEASE` is the sequencer's tick, also after the last column. -/
theorem exec_coldrive_of_kRelease (hp : s.phase = .kRelease) :
    exec (.coldrive 0b0000#4) s = .next (tickAlone s) := by
  rw [exec_coldrive_zero]
  exact access_eq_tickAlone fun _ => by simp [advance, hp]

/-- ENCODE of an in-range pixel's products in `L_LOAD` is the sequencer's tick (41_frame_renderer.md R101). -/
theorem exec_encode_of_lLoad (hp : s.phase = .lLoad) (hin : pixelInRange s.mask[s.i] s.color = true) :
    exec (.encode (s.mask[s.i] * s.color.red) (s.mask[s.i] * s.color.green) (s.mask[s.i] * s.color.blue)) s =
      .next (tickAlone s) := by
  rw [exec_encode]
  refine access_eq_tickAlone fun _ => ?_
  rw [advance, State.clearDone_phase, hp]
  exact congrArg (offerWord · s.clearDone) (encodePixel_of_inRange _ _ _ _ hin).symm

/-- The tick of `L_LOAD`, whatever its pixel: the word of `EncodePixel` is put on offer and its draws are taken. -/
theorem tickAlone_of_lLoad (hr : s.pins.rst = false) (hp : s.phase = .lLoad) :
    tickAlone s = { s.afterTick s.emitted with
      done := false, ledValid := true, phase := .lPush,
      ledWord := (encodePixel s.params.order s.draws s.mask[s.i] s.color).1,
      draws := (encodePixel s.params.order s.draws s.mask[s.i] s.color).2 } := by
  have hadv : advance s.clearDone = loadTick s.clearDone := by simp [advance, hp]
  have hwires : wireEvents s (loadTick s.clearDone) = s.emitted := wireEvents_quiet s _ rfl rfl
  rw [tickAlone, clock_of_run _ s hr, hadv, endTick, hwires]
  rfl

end Phases

/-- Settles O28: the busy step is the sequencer's tick, and so is the access of the phase. -/
theorem stepRunsTheAccessOfThePhase : Obligations.StepRunsTheAccessOfThePhase := by
  intro s hr
  have htick {p : Phase} (hp : s.phase = p) (hne : p ≠ .idle) : step s = .next (tickAlone s) :=
    step_of_busy s (hp ▸ hne)
  refine ⟨fun hp => ?_, fun hp => ?_, fun hp => ?_, fun hp => ?_, fun hp hin => ?_, fun hp => ?_⟩ <;>
    rw [htick hp (by decide)]
  · exact (exec_coldrive_of_kDrive hp).symm
  · exact (exec_rowread_of_kSample hp).symm
  · exact (exec_rowread_rowBit_of_kResample hp).symm
  · exact (exec_coldrive_of_kRelease hp).symm
  · exact (exec_encode_of_lLoad hp hin).symm
  · rw [tickAlone_of_lLoad hr hp]

/-! ### The ideal matrix (20_memory.md R53) -/

/-- With one key pressed its row's component holds its column alone, and no other row's component holds a column. -/
theorem componentCols_singleton (r c r' : Index4) : componentCols [(r, c)] r' = if r' = r then [c] else [] := by
  revert r c r'
  decide

/-- With one key pressed the ideal matrix asks of each row: the column's level for the key's row, else 0. -/
theorem idealMatrix_singleton (r c : Index4) (col rowIn : BitVec 4) :
    idealMatrix [(r, c)] col rowIn =
      (List.finRange 4).all fun r' => readRow rowIn r' == (decide (r' = r) && readRow col c) := by
  refine congrArg (List.finRange 4).all (funext fun r' => ?_)
  rw [componentCols_singleton]
  by_cases h : r' = r
  · cases hc : readRow col c <;> simp [h, hc]
  · simp [h]

/-- Settles O60, row by row: the component of a row with one key pressed is known. -/
theorem idealMatrixWithOneKey : Obligations.IdealMatrixWithOneKey := by
  intro r c col rowIn
  simp [idealMatrix_singleton, readRow]

end Sys2Proof.Machine
end

section
/-! The words that cross the block's interfaces (30_encoding.md): the formats W and KEY are packed and unpacked without
loss and N255 codes come back from their intensities, so the decoder and the encoder agree; and what the operations of
these words do where the sequencer makes them. -/

namespace Sys2Proof.Machine

/-! ### N255 intensities (30_encoding.md R70) -/

/-- The value of an N255 code as a quotient. -/
theorem n255_eq_div (k : Byte) : n255 k = (k.toNat : Rat) / 255 := by
  simp [n255, Rat.mkRat_eq_div]

/-- An N255 code denotes an intensity from 0 to 1. -/
@[simp] theorem inRange_n255 (k : Byte) : inRange (n255 k) = true := by
  rw [inRange_iff, n255_eq_div, div_le_one (by norm_num)]
  exact ⟨by positivity, by exact_mod_cast Nat.le_of_lt_succ k.isLt⟩

/-- The byte of the intensity that an N255 code denotes is the code. -/
@[simp] theorem truncByte_n255 (k : Byte) : truncByte (n255 k) = k := by
  have hmul : n255 k * 255 = ((k.toNat : Int) : Rat) := by
    rw [n255_eq_div, div_mul_cancel₀ _ (by norm_num), Int.cast_natCast]
  rw [truncByte_of_inRange _ (inRange_n255 k), hmul, Rat.floor_intCast, BitVec.ofInt_natCast, BitVec.ofNat_toNat,
    BitVec.setWidth_eq]

/-! ### The formats W and KEY (30_encoding.md R61, R63, R66) -/

/-- A word is the concatenation of its four bytes. -/
theorem cat_extract_bytes (w : Word) :
    w.extractLsb' 24 8 ++ w.extractLsb' 16 8 ++ w.extractLsb' 8 8 ++ w.extractLsb' 0 8 = w := by
  rw [BitVec.extractLsb'_append_extractLsb'_eq_extractLsb' (by rfl),
    BitVec.extractLsb'_append_extractLsb'_eq_extractLsb' (by rfl),
    BitVec.extractLsb'_append_extractLsb'_eq_extractLsb' (by rfl)]
  exact BitVec.extractLsb'_eq_self

/-- Under every channel order a packed word gives its three bytes back. -/
theorem unpackWord_packWord (o : ChannelOrder) (r g b : Byte) : unpackWord o (packWord o r g b) = (r, g, b) := by
  obtain ⟨hr, hg, hb, -⟩ := packWord_bytes o r g b
  cases o <;> exact Prod.ext hr (Prod.ext hg hb)

/-- Under every channel order a word with the low byte of format W is packed from its three bytes. -/
theorem packWord_unpackWord (o : ChannelOrder) (w : Word) (hlow : w.extractLsb' 0 8 = lowByte) :
    packWord o (unpackWord o w).1 (unpackWord o w).2.1 (unpackWord o w).2.2 = w := by
  have hcat := cat_extract_bytes w
  rw [hlow] at hcat
  cases o <;> exact hcat

/-- The low byte of format W as a mask. -/
theorem extractLsb'_eq_lowByte_iff (w : Word) : w.extractLsb' 0 8 = lowByte ↔ w &&& 0xFF#32 = 0#32 := by
  have hmask : w.toNat &&& 255 = w.toNat % 256 := Nat.and_two_pow_sub_one_eq_mod w.toNat 8
  simp [← BitVec.toNat_inj, lowByte, hmask]

/-- A packed KEY gives its three fields back. -/
theorem packKey_fields (valid : Bool) (row col : Index4) :
    (packKey valid row col).getLsbD 4 = valid ∧ ((packKey valid row col).extractLsb' 2 2).toFin = row ∧
    ((packKey valid row col).extractLsb' 0 2).toFin = col := by
  revert valid row col
  decide

/-- A KEY is packed from its three fields. -/
theorem packKey_of_fields (k : BitVec 5) :
    packKey (k.getLsbD 4) (k.extractLsb' 2 2).toFin (k.extractLsb' 0 2).toFin = k := by
  revert k
  decide

/-- A ROW bit is packed from the truth value it stands for. -/
theorem ofBool_beq_one (a : BitVec 1) : BitVec.ofBool (a == 1#1) = a := by
  revert a
  decide

/-! ### The words that are never produced (30_encoding.md R64, R72) -/

/-- The column vectors that are never driven are neither zero nor one-hot. -/
theorem legalCols_eq_false_iff (v : BitVec 4) : legalCols v = false ↔ v ≠ 0b0000#4 ∧ ∀ k, v ≠ onehot k := by
  rw [← Bool.not_eq_true, legalCols_iff, not_or, not_exists]

/-- The KEY fields that are never produced name a position without a key. -/
theorem legalKey_eq_false_iff (valid : Bool) (row col : Index4) :
    legalKey valid row col = false ↔ valid = false ∧ (row, col) ≠ (0, 0) := by
  simp [legalKey]

/-- The KEY codes that are never produced, as numbers. -/
theorem legalKey_of_fields_eq_false_iff (k : BitVec 5) :
    legalKey (k.getLsbD 4) (k.extractLsb' 2 2).toFin (k.extractLsb' 0 2).toFin = false ↔ k ≠ 0#5 ∧ k < 16#5 := by
  revert k
  decide

/-! ### Decoder and encoder, format by format (30_encoding.md R60) -/

/-- Format W. -/
theorem decode_led (o : ChannelOrder) (w : Word) :
    decode o (.led w) = if w.extractLsb' 0 8 = lowByte then
      .ok (.encode (n255 (unpackWord o w).1) (n255 (unpackWord o w).2.1) (n255 (unpackWord o w).2.2))
    else .error .ledLowByteNotZero := by
  simp [decode]

/-- Format COL. -/
theorem decode_col (o : ChannelOrder) (v : BitVec 4) :
    decode o (.col v) = if legalCols v then .ok (.coldrive v) else .error .columnVectorNeverDriven := rfl

/-- Format KEY. -/
theorem decode_key (o : ChannelOrder) (k : BitVec 5) :
    decode o (.key k) =
      if legalKey (k.getLsbD 4) (k.extractLsb' 2 2).toFin (k.extractLsb' 0 2).toFin then
        .ok (.keyresult (k.getLsbD 4) (k.extractLsb' 2 2).toFin (k.extractLsb' 0 2).toFin)
      else .error .keyCodeNeverProduced := rfl

/-- A packed word is read as the N255 intensities of its bytes. -/
theorem decode_led_packWord (o : ChannelOrder) (r g b : Byte) :
    decode o (.led (packWord o r g b)) = .ok (.encode (n255 r) (n255 g) (n255 b)) := by
  obtain ⟨-, -, -, hlow⟩ := packWord_bytes o r g b
  rw [decode_led, if_pos hlow, unpackWord_packWord]

/-- A packed legal KEY is read as its fields. -/
theorem decode_key_packKey (o : ChannelOrder) {valid : Bool} {row col : Index4} (h : legalKey valid row col = true) :
    decode o (.key (packKey valid row col)) = .ok (.keyresult valid row col) := by
  obtain ⟨hvalid, hrow, hcol⟩ := packKey_fields valid row col
  rw [decode_key, hvalid, hrow, hcol, if_pos h]

/-- N255 intensities have their codes as the bytes of their word. -/
theorem encode_n255 (o : ChannelOrder) (a b c : Byte) :
    encode o (.encode (n255 a) (n255 b) (n255 c)) = some (.led (packWord o a b c)) := by
  simp [encode]

/-- Every command keeps its code (30_encoding.md R69, R71). -/
theorem encode_decodeCmd (o : ChannelOrder) (op : BitVec 2) (m : Mask) (c : Color) :
    ∃ (m' : Mask) (c' : Color), encode o (decodeCmd op m c) = some (.cmd op m' c') := by
  have hop : op = 0b00#2 ∨ op = 0b01#2 ∨ op = 0b10#2 ∨ op = 0b11#2 := by
    revert op
    decide
  obtain rfl | rfl | rfl | rfl := hop <;> exact ⟨_, _, rfl⟩

/-- Settles O55: each format unpacks what it packs, and N255 intensities have their codes as bytes. -/
theorem decodeOfEncodeGivesItBack : Obligations.DecodeOfEncodeGivesItBack := by
  refine ⟨fun o i code hwf hcode => ?_, fun o a b c => ⟨⟨_, encode_n255 o a b c⟩, ?_⟩⟩
  · cases i
    case nop | scan | render | reserved | fill | off =>
      cases hcode
      rfl
    case encode red green blue =>
      rw [encode] at hcode
      split at hcode <;> cases hcode
      exact decode_led_packWord o _ _ _
    case coldrive v =>
      cases hcode
      exact if_pos hwf
    case rowread active =>
      cases hcode
      cases active <;> rfl
    case keyresult valid row col =>
      cases hcode
      exact decode_key_packKey o hwf
    case play | awaitRelease | dispatch | pause => cases hcode
  · simp [Instr.asSeen]

/-- Settles O56: each format packs what it unpacks. -/
theorem encodeOfDecodeGivesTheWordBack : Obligations.EncodeOfDecodeGivesTheWordBack := by
  intro o i
  refine ⟨fun w h => ?_, fun v h => ?_, fun a h => ?_, fun k h => ?_, fun m c h => ?_, fun op m c h => ?_⟩
  · rw [decode_led] at h
    split at h <;> cases h
    rw [encode_n255, packWord_unpackWord o w ‹_›]
  · rw [decode_col] at h
    split at h <;> cases h
    rfl
  · cases h
    rw [encode, ofBool_beq_one]
  · rw [decode_key] at h
    split at h <;> cases h
    rw [encode, packKey_of_fields]
  · cases h
    rfl
  · cases h
    exact encode_decodeCmd o op m c

/-- Settles O58: the low byte, `legalCols` and `legalKey` are all that the decoder asks. -/
theorem neverProducedWordsAreRejected : Obligations.NeverProducedWordsAreRejected := by
  refine fun o => ⟨fun w => ?_, fun v => ?_, fun k => ?_⟩
  · rw [decode_led, Ne.ite_eq_right_iff (by nofun), extractLsb'_eq_lowByte_iff]
  · rw [decode_col, Ne.ite_eq_right_iff (by nofun), Bool.not_eq_true, legalCols_eq_false_iff]
  · rw [decode_key, Ne.ite_eq_right_iff (by nofun), Bool.not_eq_true, legalKey_of_fields_eq_false_iff]

/-- Settles O57: the words are read bit by bit, and 51 / 255 is a fifth. -/
theorem writtenOutWordsDecode : Obligations.WrittenOutWordsDecode := by
  have h00 : n255 0x00#8 = 0 := by simp [n255_eq_div]
  have h33 : n255 0x33#8 = 1 / 5 := by norm_num [n255_eq_div]
  have hFF : n255 0xFF#8 = 1 := by norm_num [n255_eq_div]
  have hgray : decodeTableWord 32 0x33333300 = some (.encode (n255 0x33#8) (n255 0x33#8) (n255 0x33#8)) := rfl
  have hgreen : decodeTableWord 32 0xFF000000 = some (.encode (n255 0x00#8) (n255 0xFF#8) (n255 0x00#8)) := rfl
  rw [h33] at hgray
  rw [h00, hFF] at hgreen
  exact ⟨rfl, rfl, rfl, rfl, hgray, hgreen, rfl, rfl, rfl, rfl⟩

/-! ### The accesses of the keypad scanner (10_state.md section 8) -/

/-- An access in its phase, without reset, is made from a lowered `done`. -/
theorem access_of_run {here : Bool} {f : State → State} {s : State} (hh : here = true) (hr : s.pins.rst = false) :
    access here f s = .next (endTick s (f s.clearDone)) := by
  rw [hh, access_here, clock_of_run f s hr]

/-- Settles O9: the access of `K_DRIVE`, on which the wires show the columns and a transfer. -/
theorem coldriveDrivesOneColumn : Obligations.ColdriveDrivesOneColumn := by
  intro s k hp hr
  rw [exec_coldrive_onehot, access_of_run (beq_of_eq hp) hr, driveTick_eq, endTick, wireEvents_eq]
  simp [State.clearDone, State.afterTick, hp]

/-- Settles O13: both accesses end the sweep with `deliverKey`, and only the first reads a row. -/
theorem keyresultIsDelivered : Obligations.KeyresultIsDelivered := by
  intro s hr
  refine ⟨fun hp row col => ?_, fun hp hc => ?_⟩
  · rw [exec_keyresult_key, access_of_run (beq_of_eq hp) hr, endTick, wireEvents_eq]
    simp [deliverKey, State.log, State.clearDone, State.afterTick, resultOf, hp]
  · rw [exec_keyresult_none, access_of_run (by simp [hp, hc]) hr, endTick, wireEvents_eq]
    simp [deliverKey, State.clearDone, State.afterTick, resultOf, hp]

/-- Settles O17: `legalCols` and `legalKey` are all that exec asks; what they grant is an access, never refused. -/
theorem wordsNeverProducedAreRefused : Obligations.WordsNeverProducedAreRefused := by
  refine fun s => ⟨fun v => ?_, fun valid row col => ?_⟩
  · rw [exec, execColdrive, Ne.ite_eq_right_iff (by split <;> nofun), Bool.not_eq_true, legalCols_eq_false_iff]
  · rw [exec, execKeyresult, Ne.ite_eq_right_iff (by split <;> nofun), Bool.not_eq_true, legalKey_eq_false_iff]

/-! ### Operations taken up in IDLE (30_encoding.md R69, R75) -/

/-- A host that neither pauses nor has a program is the command port. -/
theorem hostFetch_of_port {s : State} (hs : s.sleep = 0) (hg : s.program = []) :
    hostFetch s =
      if s.pins.cmdValid then .run (decodeCmd s.pins.cmdOp s.pins.opMask s.pins.opColor) s else .tick := by
  simp [hostFetch, hs, hg]

/-- A host that does not pause issues the operation at the head of its program. -/
theorem hostFetch_of_issue {s : State} {i : Instr} {rest : List HostOp} (hs : s.sleep = 0)
    (hg : s.program = .issue i :: rest) : hostFetch s = .run i (s.setProgram rest) := by
  simp [hostFetch, hs, hg]

/-- Settles O26: the host fetches from the port, where the decoder reads every command. -/
theorem stepRunsTheOfferedCommand : Obligations.StepRunsTheOfferedCommand := by
  intro s hp hr hs hg
  refine ⟨fun hv i hi => ?_, fun hv => ?_⟩
  · cases hi
    simp only [step, fetch_of_idle s hr hp, hostFetch_of_port hs hg, hv, if_true]
  · have hwires : wireEvents s s.clearDone = s.emitted := wireEvents_quiet s _ rfl rfl
    simp only [step, fetch_of_idle s hr hp, hostFetch_of_port hs hg, hv, tickAlone_of_idle hr hp, endTick, hwires]
    rfl

/-- Settles O27: the host fetches the head of its program. -/
theorem stepRunsTheProgramHead : Obligations.StepRunsTheProgramHead := by
  intro s i rest hp hr hs hg
  simp only [step, fetch_of_idle s hr hp, hostFetch_of_issue hs hg, State.setProgram]

/-! ### The key symbol (30_encoding.md R67, R68) -/

/-- Well-formed parameters have no key symbol 0x00. -/
theorem keymap_ne_zero {p : Params} (h : p.wf = true) (r c : Index4) : p.keymap[r][c] ≠ 0x00#8 := by
  simp only [Params.wf, Bool.and_eq_true, List.all_eq_true, bne_iff_ne, Vector.mem_toList_iff] at h
  exact h.2 _ (Vector.getElem_mem r.isLt) _ (Vector.getElem_mem c.isLt)

/-- Settles O59: a reported key has an entry of `KEYMAP`, and no entry is 0x00. -/
theorem keySymbolZeroMeansNone : Obligations.KeySymbolZeroMeansNone := by
  intro s hwf
  cases hv : s.keyValid with
  | false => simp [State.keySym, hv]
  | true =>
    have hsym : s.keySym = s.params.keymap[s.keyRow][s.keyCol] := if_pos hv
    exact ⟨iff_of_false (hsym ▸ keymap_ne_zero hwf _ _) (by simp), fun _ => hsym⟩

end Sys2Proof.Machine
end

section
/-! The colour encoder (40_color_encoder.md): which intensities give which byte, the word of three bytes as shifts, and
the tick on which exec of an ENCODE puts that word on offer. -/

namespace Sys2Proof.Machine

/-! ### The byte of an in-range intensity (40_color_encoder.md R91) -/

/-- The floor of 255 times an in-range intensity fits a byte. -/
theorem floor_of_inRange {v : Intensity} (h : inRange v = true) : 0 ≤ (v * 255).floor ∧ (v * 255).floor < 256 := by
  obtain ⟨h0, h1⟩ := (inRange_iff v).1 h
  rw [Rat.le_floor_iff, Rat.floor_lt_iff]
  constructor <;> push_cast <;> linarith

/-- As a number, the byte of an in-range intensity is that floor: nothing is lost to the width. -/
theorem toNat_truncByte {v : Intensity} (h : inRange v = true) : ((truncByte v).toNat : Int) = (v * 255).floor := by
  obtain ⟨h0, h256⟩ := floor_of_inRange h
  rw [truncByte_of_inRange v h, BitVec.toNat_ofInt]
  omega

/-- The byte of an in-range intensity, widened to a word. -/
theorem setWidth_truncByte {v : Intensity} (h : inRange v = true) :
    (truncByte v).setWidth 32 = BitVec.ofInt 32 (v * 255).floor := by
  rw [← BitVec.ofNat_toNat, ← BitVec.ofInt_natCast, toNat_truncByte h]

/-- The intensities with the byte `b`: those from `b / 255` up to the next byte's. -/
theorem truncByte_eq_iff {v : Intensity} (h : inRange v = true) (b : Byte) :
    truncByte v = b ↔ (b.toNat : Rat) / 255 ≤ v ∧ v < (b.toNat + 1) / 255 := by
  have hfloor : truncByte v = b ↔ (b.toNat : Int) ≤ (v * 255).floor ∧ (v * 255).floor < (b.toNat : Int) + 1 := by
    rw [← BitVec.toNat_inj, ← Nat.cast_inj (R := Int), toNat_truncByte h]
    omega
  rw [hfloor, Rat.le_floor_iff, Rat.floor_lt_iff, div_le_iff₀ (by norm_num), lt_div_iff₀ (by norm_num)]
  push_cast
  rfl

/-- A greater in-range intensity has no smaller byte. -/
theorem truncByte_mono {u v : Intensity} (hu : inRange u = true) (hv : inRange v = true) (huv : u ≤ v) :
    truncByte u ≤ truncByte v := by
  have hfloor : (u * 255).floor ≤ (v * 255).floor := Rat.floor_monotone (by linarith)
  rw [← toNat_truncByte hu, ← toNat_truncByte hv] at hfloor
  exact BitVec.le_def.2 (Int.ofNat_le.1 hfloor)

/-- The channel byte from the bounds that its value keeps. -/
theorem channelByte_of_bounds {v : Intensity} (n : Nat) {b : Byte} (h0 : 0 ≤ v) (h1 : v ≤ 1)
    (hle : (b.toNat : Rat) / 255 ≤ v) (hlt : v < (b.toNat + 1) / 255) : channelByte n v = (b, n) := by
  have h : inRange v = true := (inRange_iff v).2 ⟨h0, h1⟩
  rw [channelByte_of_inRange n v h, (truncByte_eq_iff h b).2 ⟨hle, hlt⟩]

/-- Settles O53: each byte has its interval of intensities, the floor is monotone, and the corner cases lie in theirs. -/
theorem channelByteTruncates : Obligations.ChannelByteTruncates := by
  refine ⟨fun n v h0 h1 => ?_, fun n u v h0 huv h1 => ?_, fun n => ?_⟩
  · have h : inRange v = true := (inRange_iff v).2 ⟨h0, h1⟩
    refine ⟨truncByte v, channelByte_of_inRange n v h, toNat_truncByte h, ?_, ?_, ?_⟩ <;> rw [truncByte_eq_iff h]
    · constructor
      · rintro ⟨hle, -⟩
        exact le_antisymm h1 (by simpa using hle)
      · rintro rfl
        norm_num
    · simp [h0]
    · norm_num
  · have hu : inRange u = true := (inRange_iff u).2 ⟨h0, huv.trans h1⟩
    have hv : inRange v = true := (inRange_iff v).2 ⟨h0.trans huv, h1⟩
    rw [channelByte_of_inRange n u hu, channelByte_of_inRange n v hv]
    exact truncByte_mono hu hv huv
  · refine ⟨?_, ?_, ?_, ?_, ?_, ?_, ?_, ?_⟩ <;> apply channelByte_of_bounds <;> norm_num

/-! ### The word as shifts (30_encoding.md R61, R63) -/

/-- Appending a byte, as a shift within a word. -/
theorem setWidth_append_byte {n : Nat} (x : BitVec n) (y : Byte) :
    (x ++ y).setWidth 32 = x.setWidth 32 <<< 8 ||| y.setWidth 32 := by
  ext i hi
  simp only [BitVec.getElem_setWidth, BitVec.getLsbD_append, BitVec.getElem_or, BitVec.getElem_shiftLeft]
  by_cases h : i < 8
  · simp [h]
  · simp [h, BitVec.getLsbD_of_ge y i (by omega)]

/-- Three bytes over the low byte of format W, as shifts. -/
theorem cat_lowByte_eq_shifts (x y z : Byte) : (x ++ y ++ z ++ lowByte : Word) =
    x.setWidth 32 <<< 24 ||| y.setWidth 32 <<< 16 ||| z.setWidth 32 <<< 8 := by
  have h := setWidth_append_byte (x ++ y ++ z) lowByte
  rw [setWidth_append_byte (x ++ y) z, setWidth_append_byte x y, BitVec.setWidth_eq] at h
  simpa [lowByte, BitVec.shiftLeft_or_distrib, ← BitVec.shiftLeft_add] using h

/-- `simp` sorts three joined words by this. -/
theorem word_or_left_comm (x y z : Word) : x ||| (y ||| z) = y ||| (x ||| z) := by
  ac_rfl

/-- Under every channel order a packed word is its three bytes, each shifted to its place. -/
theorem packWord_eq_shifts (o : ChannelOrder) (r g b : Byte) :
    packWord o r g b = g.setWidth 32 <<< greenAt o ||| r.setWidth 32 <<< redAt o ||| b.setWidth 32 <<< blueAt o := by
  rw [packWord, cat_lowByte_eq_shifts]
  cases o <;>
    simp only [orderBytes, redAt, greenAt, blueAt, BitVec.or_assoc, BitVec.or_comm, word_or_left_comm]

/-! ### ENCODE as a function (40_color_encoder.md R90, R92) -/

/-- The word of an ENCODE and the supply after it: three bytes, exact or drawn, in the order green, red, blue. -/
theorem encodeWord_eq (o : ChannelOrder) (n : Nat) (red green blue : Intensity) :
    encodeWord o n red green blue =
      (packWord o (byteOrDraw (inRange red) red (n + drawsOf (inRange green))) (byteOrDraw (inRange green) green n)
        (byteOrDraw (inRange blue) blue (n + drawsOf (inRange green) + drawsOf (inRange red))),
      n + drawsOf (inRange green) + drawsOf (inRange red) + drawsOf (inRange blue)) := by
  simp only [encodeWord, channelByte_eq]

/-- An ENCODE of in-range channels packs their bytes and takes no draw. -/
theorem encodeWord_of_inRange (o : ChannelOrder) (n : Nat) {red green blue : Intensity}
    (hr : inRange red = true) (hg : inRange green = true) (hb : inRange blue = true) :
    encodeWord o n red green blue = (packWord o (truncByte red) (truncByte green) (truncByte blue), n) := by
  simp only [encodeWord, channelByte_of_inRange, hr, hg, hb]

/-- Settles O54: the word packs the three bytes, and `packWord_bytes` says where they stand. -/
theorem encodedBytesInTheirPositions : Obligations.EncodedBytesInTheirPositions := by
  intro o n red green blue hr0 hr1 hg0 hg1 hb0 hb1 w
  have hr := (inRange_iff red).2 ⟨hr0, hr1⟩
  have hg := (inRange_iff green).2 ⟨hg0, hg1⟩
  have hb := (inRange_iff blue).2 ⟨hb0, hb1⟩
  have hw : w = packWord o (truncByte red) (truncByte green) (truncByte blue) :=
    congrArg Prod.fst (encodeWord_of_inRange o n hr hg hb)
  obtain ⟨hred, hgreen, hblue, hlow⟩ := packWord_bytes o (truncByte red) (truncByte green) (truncByte blue)
  rw [hw, hred, hgreen, hblue]
  exact ⟨toNat_truncByte hg, toNat_truncByte hr, toNat_truncByte hb, hlow⟩

/-! ### ENCODE as the access of `L_LOAD` (10_state.md section 8; log 9) -/

/-- The tick of an ENCODE in `L_LOAD`, whatever its channels: the word is put on offer and its draws are taken. -/
theorem exec_encode_of_run {s : State} (hp : s.phase = .lLoad) (hrst : s.pins.rst = false)
    (red green blue : Intensity) :
    exec (.encode red green blue) s = .next { s.afterTick s.emitted with
      done := false, ledValid := true, phase := .lPush,
      ledWord := (encodeWord s.params.order s.draws red green blue).1,
      draws := (encodeWord s.params.order s.draws red green blue).2 } := by
  have hwires (w : Word × Nat) : wireEvents s (offerWord w s.clearDone) = s.emitted := wireEvents_quiet s _ rfl rfl
  rw [exec_encode, access_of_run (beq_of_eq hp) hrst, endTick, hwires]
  rfl

/-- Settles O14: the word on offer is the packed bytes, written as shifts. -/
theorem encodePacksItsChannels : Obligations.EncodePacksItsChannels := by
  intro s red green blue hp hrst hr hg hb
  rw [exec_encode_of_run hp hrst, encodeWord_of_inRange _ _ hr hg hb, packWord_eq_shifts, setWidth_truncByte hr,
    setWidth_truncByte hg, setWidth_truncByte hb]
  rfl

/-- Settles O15: the word on offer packs bytes that are exact or drawn, and `packWord_bytes` says where they stand. -/
theorem encodeContinuesOutOfRange : Obligations.EncodeContinuesOutOfRange := by
  intro s red green blue hp hrst
  obtain ⟨hred, hgreen, hblue, hlow⟩ := packWord_bytes s.params.order
    (byteOrDraw (inRange red) red (s.draws + drawsOf (inRange green))) (byteOrDraw (inRange green) green s.draws)
    (byteOrDraw (inRange blue) blue (s.draws + drawsOf (inRange green) + drawsOf (inRange red)))
  refine ⟨_, ?_, hgreen, hred, hblue, hlow⟩
  rw [exec_encode_of_run hp hrst, encodeWord_eq]

end Sys2Proof.Machine
end

section
/-! The frame renderer (41_frame_renderer.md): the words of a frame as a function of its operands, what each tick of the
serializer does and keeps, and from both the run of a RENDER from its acceptance to `done`. -/

namespace Sys2Proof.Machine

/-! ### The words of a pixel and of a frame (41_frame_renderer.md R101, R102) -/

/-- The word of a pixel and the supply after it: three bytes, exact or drawn, in the order green, red, blue. -/
theorem encodePixel_eq (o : ChannelOrder) (n : Nat) (m : Intensity) (c : Color) :
    let g := inRange m && inRange c.green
    let r := inRange m && inRange c.red
    let b := inRange m && inRange c.blue
    encodePixel o n m c =
      (packWord o (byteOrDraw r (m * c.red) (n + drawsOf g)) (byteOrDraw g (m * c.green) n)
        (byteOrDraw b (m * c.blue) (n + drawsOf g + drawsOf r)),
      n + drawsOf g + drawsOf r + drawsOf b) := by
  simp only [encodePixel, pixelByte_eq]

/-- Settles O44: the pixel packs bytes that are exact or drawn, and `packWord_bytes` says where they stand. -/
theorem pixelDrawsOnItsFactors : Obligations.PixelDrawsOnItsFactors := by
  intro o n m c g r b p
  have hp : p = _ := encodePixel_eq o n m c
  obtain ⟨hred, hgreen, hblue, hlow⟩ := packWord_bytes o (byteOrDraw r (m * c.red) (n + drawsOf g))
    (byteOrDraw g (m * c.green) n) (byteOrDraw b (m * c.blue) (n + drawsOf g + drawsOf r))
  rw [hp]
  exact ⟨rfl, hgreen, hred, hblue, hlow⟩

/-- A pixel whose factors are in range packs the bytes of its products and takes no draw. -/
theorem encodePixel_exact (o : ChannelOrder) (n : Nat) {m : Intensity} {c : Color} (h : pixelInRange m c = true) :
    encodePixel o n m c =
      (packWord o (truncByte (m * c.red)) (truncByte (m * c.green)) (truncByte (m * c.blue)), n) := by
  rw [encodePixel_of_inRange o n m c h]
  simp only [pixelInRange, Bool.and_eq_true] at h
  obtain ⟨⟨⟨hm, hr⟩, hg⟩, hb⟩ := h
  exact encodeWord_of_inRange o n (inRange_mul m _ hm hr) (inRange_mul m _ hm hg) (inRange_mul m _ hm hb)

/-- The words of in-range pixels, whatever the supply: no pixel takes a draw from the next. -/
theorem opRenderFrom_of_inRange (o : ChannelOrder) {mask : Mask} {c : Color} (ks : List PixelIndex)
    (h : ∀ k ∈ ks, pixelInRange mask[k] c = true) (n : Nat) :
    opRenderFrom o mask c ks n = ks.map fun k =>
      (k, packWord o (truncByte (mask[k] * c.red)) (truncByte (mask[k] * c.green)) (truncByte (mask[k] * c.blue))) := by
  induction ks with
  | nil => rfl
  | cons k ks ih =>
    obtain ⟨hk, hks⟩ := List.forall_mem_cons.1 h
    rw [opRenderFrom, encodePixel_exact o n hk, ih hks, List.map_cons]

/-- Settles O43, pixel by pixel in index order. -/
theorem inRangeFrameIsExact : Obligations.InRangeFrameIsExact := by
  intro o n mask color h
  exact opRenderFrom_of_inRange o _ (List.all_eq_true.1 h) n

/-- A frame has a word for each pixel it is asked for, in that order. -/
theorem map_fst_opRenderFrom (o : ChannelOrder) (mask : Mask) (c : Color) (ks : List PixelIndex) (n : Nat) :
    (opRenderFrom o mask c ks n).map Prod.fst = ks := by
  induction ks generalizing n with
  | nil => rfl
  | cons k ks ih => rw [opRenderFrom, List.map_cons, ih]

/-- The frame of a mask with one value `m` in all its places. -/
theorem opRender_replicate (o : ChannelOrder) (n : Nat) {m : Intensity} {c : Color} (h : pixelInRange m c = true) :
    opRender o n (Vector.replicate 25 m) c = (List.finRange 25).map fun k =>
      (k, packWord o (truncByte (m * c.red)) (truncByte (m * c.green)) (truncByte (m * c.blue))) := by
  have hm (k : PixelIndex) : (Vector.replicate 25 m)[k] = m := Vector.getElem_replicate k.isLt
  rw [inRangeFrameIsExact o n _ c (List.all_eq_true.2 fun k _ => by rw [hm, h])]
  simp only [frameWords, hm]

/-! ### The acceptance of a RENDER (10_state.md section 8; 41_frame_renderer.md R104) -/

/-- `s` after the tick on which it accepts a RENDER with these operands. -/
def State.renderAccepted (s : State) (mask : Mask) (color : Color) : State :=
  { s.afterTick (.accept (.render mask color) :: s.emitted) with
    done := false, mask := mask, color := color, i := 0, phase := .lLoad }

/-- In IDLE without reset a RENDER is accepted. -/
theorem exec_render_of_idle {s : State} (hp : s.phase = .idle) (hr : s.pins.rst = false) (mask : Mask)
    (color : Color) : exec (.render mask color) s = .next (s.renderAccepted mask color) := by
  have hwires : wireEvents s ((acceptRender mask color s.clearDone).log (.accept (.render mask color))) = s.emitted :=
    wireEvents_quiet s _ rfl rfl
  obtain ⟨hr', -⟩ | ⟨-, -, he⟩ | ⟨-, hp', -⟩ := offer_cases (.render mask color) (acceptRender mask color) s
  · simp [hr] at hr'
  · rw [exec, execRender, he, endTick, hwires, State.log_events, List.append_assoc]
    rfl
  · exact absurd hp hp'

/-- Settles O3: only `done` falls beside what the acceptance writes. -/
theorem renderAcceptanceCapturesOperands : Obligations.RenderAcceptanceCapturesOperands := by
  intro s mask color hp hr
  exact exec_render_of_idle hp hr mask color

/-- FILL is `RENDER ONES, color` (41_frame_renderer.md R106). -/
theorem exec_fill (color : Color) (s : State) : exec (.fill color) s = exec (.render Mask.ones color) s := rfl

/-- OFF is `RENDER ZEROS, (0, 0, 0)` (41_frame_renderer.md R107). -/
theorem exec_off (s : State) : exec .off s = exec (.render Mask.zeros Color.black) s := rfl

/-- Settles O4: a pixel of the frame is in range with the colour, and its products with 1 are the colour. -/
theorem fillIsRenderOnes : Obligations.FillIsRenderOnes := by
  refine ⟨fun s color => exec_fill color s, fun s color hp hr => ?_, fun o n color hr hg hb => ?_⟩
  · rw [exec_fill, exec_render_of_idle hp hr]
    rfl
  · have hin : pixelInRange 1 color = true := by simp [pixelInRange, hr, hg, hb, inRange_iff]
    rw [opRender_replicate o n hin, encodeWord_of_inRange o n hr hg hb]
    simp only [one_mul]

/-- The word of a black pixel is zero under every channel order. -/
theorem packWord_black (o : ChannelOrder) : packWord o (truncByte 0) (truncByte 0) (truncByte 0) = 0x00000000#32 := by
  have hzero : truncByte 0 = 0x00#8 := (truncByte_eq_iff (by simp [inRange]) _).2 (by norm_num)
  rw [hzero]
  cases o <;> rfl

/-- Settles O5: every product is 0, and so is the word of a black pixel. -/
theorem offIsRenderZeros : Obligations.OffIsRenderZeros := by
  refine ⟨exec_off, fun s hp hr => ?_, fun o n => ?_⟩
  · rw [exec_off, exec_render_of_idle hp hr]
    rfl
  · rw [opRender_replicate o n (by simp [pixelInRange, inRange_iff])]
    simp only [zero_mul, packWord_black]

/-! ### The ticks of a busy serializer (10_state.md section 8) -/

/-- Settles O29, phase by phase in `step_of_busy`: the access made there is what the sequencer does. -/
theorem busyStepIsTheSequencersTick : Obligations.BusyStepIsTheSequencersTick := by
  intro s hp
  exact step_of_busy s hp

section Ticks
variable {s : State}

/-- With no word on offer nothing is transferred. -/
theorem emitted_of_noWord (hv : s.ledValid = false) : s.emitted = [] := by
  simp [State.emitted, State.transfer, hv]

/-- To a peripheral that is not ready nothing is transferred. -/
theorem emitted_of_unready (hl : s.pins.ledReady = false) : s.emitted = [] := by
  simp [State.emitted, State.transfer, hl]

/-- A ready peripheral takes the word on offer. -/
theorem emitted_of_ready (hv : s.ledValid = true) (hl : s.pins.ledReady = true) :
    s.emitted = [.emit s.i s.ledWord] := by
  simp [State.emitted, State.transfer, hv, hl]

/-- A tick of `L_PUSH` without reset is `pushTick` and the bookkeeping of the tick. -/
theorem tickAlone_of_lPush (hr : s.pins.rst = false) (hp : s.phase = .lPush) :
    tickAlone s = endTick s (pushTick s.pins.ledReady s.clearDone) := by
  have hadv : advance s.clearDone = pushTick s.pins.ledReady s.clearDone := by simp [advance, hp]
  rw [tickAlone, clock_of_run _ s hr, hadv]

/-- While the peripheral is not ready the word is held (41_frame_renderer.md R103). -/
theorem tickAlone_of_unready (hr : s.pins.rst = false) (hp : s.phase = .lPush) (hl : s.pins.ledReady = false) :
    tickAlone s = { s.afterTick [] with done := false } := by
  have hpush : pushTick s.pins.ledReady s.clearDone = s.clearDone := by simp [pushTick, hl]
  have hquiet : wireEvents s s.clearDone = s.emitted := wireEvents_quiet s _ rfl rfl
  rw [tickAlone_of_lPush hr hp, hpush, endTick, hquiet, emitted_of_unready hl]
  rfl

/-- The transfer of a word before the last: the next pixel follows. -/
theorem tickAlone_of_transfer (hr : s.pins.rst = false) (hp : s.phase = .lPush) (hv : s.ledValid = true)
    (hl : s.pins.ledReady = true) (hi : s.i.val < 24) :
    tickAlone s =
      { s.afterTick [.emit s.i s.ledWord] with done := false, ledValid := false, i := s.i + 1, phase := .lLoad } := by
  have hpush : pushTick s.pins.ledReady s.clearDone =
      { s.clearDone with ledValid := false, i := s.i + 1, phase := .lLoad } := by simp [pushTick, hl, hi]
  rw [tickAlone_of_lPush hr hp, hpush, endTick, wireEvents_eq, emitted_of_ready hv hl]
  simp [State.colsTo, State.clearDone, State.afterTick]

/-- The transfer of the last word completes the RENDER (41_frame_renderer.md R105). -/
theorem tickAlone_of_lastTransfer (hr : s.pins.rst = false) (hp : s.phase = .lPush) (hv : s.ledValid = true)
    (hl : s.pins.ledReady = true) (hi : ¬ s.i.val < 24) :
    tickAlone s =
      { s.afterTick [.emit s.i s.ledWord, .done .frame] with done := true, ledValid := false, phase := .idle } := by
  have hpush : pushTick s.pins.ledReady s.clearDone =
      { s.clearDone with ledValid := false, done := true, phase := .idle } := by simp [pushTick, hl, hi]
  rw [tickAlone_of_lPush hr hp, hpush, endTick, wireEvents_eq, emitted_of_ready hv hl]
  simp [State.colsTo, resultOf, State.clearDone, State.afterTick, hp]

end Ticks

/-- Settles O19: the word is held, or it is transferred and the next pixel or completion follows. -/
theorem pushBlocksUntilAccepted : Obligations.PushBlocksUntilAccepted := by
  intro s hp hv hr
  rw [step_of_busy s (by simp [hp])]
  cases hl : s.pins.ledReady with
  | false => rw [tickAlone_of_unready hr hp hl, if_neg Bool.false_ne_true]
  | true =>
    rw [if_pos rfl]
    split
    case isTrue hi => rw [tickAlone_of_transfer hr hp hv hl hi]
    case isFalse hi => rw [tickAlone_of_lastTransfer hr hp hv hl hi]

/-! ### The words sent and those to come (41_frame_renderer.md R100) -/

/-- The word that an event shows to be transferred (10_state.md R35). -/
def Event.word : Event → Option (PixelIndex × Word)
  | .emit i w => some (i, w)
  | .accept _ => none
  | .cols _ => none
  | .read _ _ _ _ => none
  | .done _ => none

/-- The words transferred, as the words of the events. -/
theorem ledStream_eq (s : State) : s.ledStream = s.events.filterMap Event.word := by
  refine congrArg (List.filterMap · s.events) (funext fun e => ?_)
  cases e <;> rfl

/-- Later events add their words to those transferred. -/
theorem ledStream_of_events {s t : State} {evs : List Event} (h : t.events = s.events ++ evs) :
    t.ledStream = s.ledStream ++ evs.filterMap Event.word := by
  rw [ledStream_eq, ledStream_eq, h, List.filterMap_append]

/-- In `L_LOAD` the word of pixel `i` comes next, and those after it from the supply that it leaves. -/
theorem toSend_of_lLoad {s : State} (hp : s.phase = .lLoad) :
    s.toSend = (s.i, (encodePixel s.params.order s.draws s.mask[s.i] s.color).1) ::
      opRenderFrom s.params.order s.mask s.color ((List.finRange 25).drop (s.i.val + 1))
        (encodePixel s.params.order s.draws s.mask[s.i] s.color).2 := by
  have hdrop : (List.finRange 25).drop s.i.val = s.i :: (List.finRange 25).drop (s.i.val + 1) := by
    rw [List.drop_eq_getElem_cons (by simp), List.getElem_finRange]
    rfl
  rw [State.toSend, hp, hdrop]
  rfl

/-- In `L_PUSH` the word on offer comes next. -/
theorem toSend_of_lPush {s : State} (hp : s.phase = .lPush) :
    s.toSend = (s.i, s.ledWord) ::
      opRenderFrom s.params.order s.mask s.color ((List.finRange 25).drop (s.i.val + 1)) s.draws := by
  rw [State.toSend, hp]

/-- What a tick of a busy serializer keeps: the words sent with those to come, that a word is on offer in `L_PUSH` only
(10_state.md R31 d), and what is not the serializer's. -/
structure KeepsFrame (s t : State) : Prop where
  words : t.ledStream ++ t.toSend = s.ledStream ++ s.toSend
  led : t.ledValid = true ↔ t.phase = .lPush
  col : t.col = s.col
  key : t.key = s.key
  program : t.program = s.program

theorem KeepsFrame.trans {s t u : State} (h : KeepsFrame s t) (h' : KeepsFrame t u) : KeepsFrame s u :=
  ⟨h'.words.trans h.words, h'.led, h'.col.trans h.col, h'.key.trans h.key, h'.program.trans h.program⟩

/-- The word loaded is the first of those to come. -/
theorem keepsFrame_of_lLoad {s : State} (hr : s.pins.rst = false) (hp : s.phase = .lLoad)
    (hv : s.ledValid = false) : KeepsFrame s (tickAlone s) := by
  rw [tickAlone_of_lLoad hr hp, emitted_of_noWord hv]
  refine ⟨?_, by simp, rfl, rfl, rfl⟩
  rw [toSend_of_lLoad hp, ledStream_of_events rfl, List.filterMap_nil, List.append_nil]
  rfl

/-- A word on offer stays the first of those to come until its transfer makes it the last of those sent. -/
theorem keepsFrame_of_lPush {s : State} (hr : s.pins.rst = false) (hp : s.phase = .lPush)
    (hv : s.ledValid = true) : KeepsFrame s (tickAlone s) := by
  cases hl : s.pins.ledReady with
  | false =>
    rw [tickAlone_of_unready hr hp hl]
    refine ⟨?_, iff_of_true hv hp, rfl, rfl, rfl⟩
    rw [ledStream_of_events rfl, List.filterMap_nil, List.append_nil]
    rfl
  | true =>
    by_cases hi : s.i.val < 24
    · rw [tickAlone_of_transfer hr hp hv hl hi]
      refine ⟨?_, by simp, rfl, rfl, rfl⟩
      have hnext : (s.i + 1).val = s.i.val + 1 := Fin.val_add_one_of_lt' (by omega)
      rw [ledStream_of_events rfl, toSend_of_lPush hp, List.append_assoc, ← hnext]
      rfl
    · rw [tickAlone_of_lastTransfer hr hp hv hl hi]
      refine ⟨?_, by simp, rfl, rfl, rfl⟩
      have hlast : (List.finRange 25).drop (s.i.val + 1) = [] := List.drop_eq_nil_of_le (by simp; omega)
      rw [ledStream_of_events rfl, toSend_of_lPush hp, List.append_assoc, hlast]
      rfl

/-- Every tick of a busy serializer keeps the frame. -/
theorem tickAlone_keepsFrame {s : State} (hr : s.pins.rst = false) (hp : s.phase = .lLoad ∨ s.phase = .lPush)
    (hled : s.ledValid = true ↔ s.phase = .lPush) : KeepsFrame s (tickAlone s) := by
  obtain hp | hp := hp
  · exact keepsFrame_of_lLoad hr hp (by simpa [hp] using hled)
  · exact keepsFrame_of_lPush hr hp (hled.2 hp)

/-- After its acceptance all words of the frame are to come, and nothing has been sent. -/
theorem renderAccepted_words {s : State} (hv : s.ledValid = false) (mask : Mask) (color : Color) :
    (s.renderAccepted mask color).ledStream ++ (s.renderAccepted mask color).toSend =
      s.ledStream ++ opRender s.params.order s.draws mask color := by
  have hsent : (s.renderAccepted mask color).ledStream = s.ledStream := by
    rw [ledStream_of_events rfl, emitted_of_noWord hv]
    exact List.append_nil _
  rw [hsent]
  rfl

/-- Settles O42: the acceptance puts the frame before the serializer, and each of its ticks takes a word from those to
come only to send it. -/
theorem renderSendsItsFrameInOrder : Obligations.RenderSendsItsFrameInOrder := by
  refine ⟨fun s t hp hv hr mask color h => ?_, fun s t hled hp hr h => ?_⟩
  · rw [exec_render_of_idle hp hr] at h
    cases h
    exact ⟨renderAccepted_words hv mask color, map_fst_opRenderFrom ..⟩
  · rw [step_of_busy s (fun hi => by simp [hi] at hp)] at h
    cases h
    exact (tickAlone_keepsFrame hr hp hled).words

/-! ### The run of a RENDER (41_frame_renderer.md R105) -/

/-- The inputs after `n` ticks are those of `n` ticks later. -/
theorem iterate_tickAlone_pinsAt (a : State) (n k : Nat) : (tickAlone^[n] a).pinsAt k = a.pinsAt (n + k) := by
  induction n generalizing a with
  | zero => simp
  | succ n ih =>
    rw [Function.iterate_succ_apply, ih, tickAlone, clock_pinsAt]
    congr 1
    omega

/-- The inputs of the tick that follows. -/
theorem pins_iterate_tickAlone (a : State) (n : Nat) : (tickAlone^[n] a).pins = a.pinsAt n := by
  rw [← pinsAt_zero, iterate_tickAlone_pinsAt]
  rfl

/-- Each tick counts one. -/
theorem iterate_tickAlone_tick (a : State) (n : Nat) : (tickAlone^[n] a).tick = a.tick + n := by
  induction n with
  | zero => rfl
  | succ n ih =>
    rw [Function.iterate_succ_apply', tickAlone, (clock_time _ _).2, ih]
    rfl

/-- A run of busy steps is as many ticks. -/
theorem run_of_busy {n : Nat} {a : State} (h : ∀ m < n, (tickAlone^[m] a).phase ≠ .idle) :
    Host.Core.run core n a = .next (tickAlone^[n] a) := by
  induction n with
  | zero => rfl
  | succ n ih =>
    rw [Function.iterate_succ_apply']
    exact run_succ_of_step (ih fun m hm => h m (by omega)) (step_of_busy _ (h n (by omega)))

/-- `n` ticks after `a` the serializer is in phase `p` at pixel `i`: it has been busy so far and has kept the frame. -/
structure Sending (a : State) (n : Nat) (p : Phase) (i : PixelIndex) : Prop where
  busy : ∀ m < n, (tickAlone^[m] a).phase ≠ .idle
  phase : (tickAlone^[n] a).phase = p
  pixel : (tickAlone^[n] a).i = i
  keeps : KeepsFrame a (tickAlone^[n] a)

section Run
variable {a : State} {n : Nat} {i : PixelIndex}

/-- One more tick of a busy serializer, when it leads to phase `q` at pixel `j`. -/
theorem Sending.tick {p q : Phase} {j : PixelIndex} (h : Sending a n p i) (hp : p = .lLoad ∨ p = .lPush)
    (hr : (a.pinsAt n).rst = false) (hq : (tickAlone (tickAlone^[n] a)).phase = q)
    (hj : (tickAlone (tickAlone^[n] a)).i = j) : Sending a (n + 1) q j := by
  rw [← Function.iterate_succ_apply' tickAlone] at hq hj
  refine ⟨fun m hm => ?_, hq, hj, ?_⟩
  · obtain hm | rfl := Nat.lt_succ_iff_lt_or_eq.1 hm
    · exact h.busy m hm
    · rw [h.phase]
      rintro rfl
      simp at hp
  · rw [Function.iterate_succ_apply']
    exact h.keeps.trans
      (tickAlone_keepsFrame (by rwa [pins_iterate_tickAlone]) (by rwa [h.phase]) h.keeps.led)

/-- `L_LOAD` takes one tick, whatever the peripheral says. -/
theorem Sending.load (h : Sending a n .lLoad i) (hr : (a.pinsAt n).rst = false) : Sending a (n + 1) .lPush i := by
  have heq := tickAlone_of_lLoad (by rwa [pins_iterate_tickAlone]) h.phase
  exact h.tick (.inl rfl) hr (by rw [heq]) (by rw [heq]; exact h.pixel)

/-- A tick of `L_PUSH` on which the peripheral is not ready. -/
theorem Sending.stall (h : Sending a n .lPush i) (hr : (a.pinsAt n).rst = false)
    (hl : (a.pinsAt n).ledReady = false) : Sending a (n + 1) .lPush i := by
  rw [← pins_iterate_tickAlone] at hl
  have heq := tickAlone_of_unready (by rwa [pins_iterate_tickAlone]) h.phase hl
  exact h.tick (.inr rfl) hr (by rw [heq]; exact h.phase) (by rw [heq]; exact h.pixel)

/-- The transfer of a word before the last. -/
theorem Sending.transfer (h : Sending a n .lPush i) (hr : (a.pinsAt n).rst = false)
    (hl : (a.pinsAt n).ledReady = true) (hi : i.val < 24) : Sending a (n + 1) .lLoad (i + 1) := by
  rw [← pins_iterate_tickAlone] at hl
  have heq := tickAlone_of_transfer (by rwa [pins_iterate_tickAlone]) h.phase (h.keeps.led.2 h.phase) hl
    (by rwa [h.pixel])
  exact h.tick (.inr rfl) hr (by rw [heq]) (by rw [heq, ← h.pixel])

/-- The transfer of the last word ends the run with `done`. -/
theorem Sending.lastTransfer (h : Sending a n .lPush i) (hr : (a.pinsAt n).rst = false)
    (hl : (a.pinsAt n).ledReady = true) (hi : ¬ i.val < 24) :
    Sending a (n + 1) .idle i ∧ (tickAlone^[n + 1] a).done = true := by
  rw [← pins_iterate_tickAlone] at hl
  have heq := tickAlone_of_lastTransfer (by rwa [pins_iterate_tickAlone]) h.phase (h.keeps.led.2 h.phase) hl
    (by rwa [h.pixel])
  refine ⟨h.tick (.inr rfl) hr (by rw [heq]) (by rw [heq]; exact h.pixel), ?_⟩
  rw [Function.iterate_succ_apply', heq]

/-- Any number of not-ready ticks in `L_PUSH`. -/
theorem Sending.stalls (h : Sending a n .lPush i) (m : Nat) (hr : ∀ k < n + m, (a.pinsAt k).rst = false)
    (hl : ∀ j < m, (a.pinsAt (n + j)).ledReady = false) : Sending a (n + m) .lPush i := by
  induction m with
  | zero => exact h
  | succ m ih =>
    exact (ih (fun k hk => hr k (by omega)) fun j hj => hl j (by omega)).stall (hr _ (by omega)) (hl m (by omega))

end Run

/-- The busy ticks before the `L_LOAD` of pixel `k`, when each pixel takes two ticks and its stalls. -/
def loadTime (stalls : Vector Nat 25) (k : Nat) : Nat := 2 * k + (stalls.toList.take k).sum

/-- A pixel takes its `L_LOAD`, its stalls and its transfer. -/
theorem loadTime_succ (stalls : Vector Nat 25) (k : PixelIndex) :
    loadTime stalls (k.val + 1) = loadTime stalls k.val + 1 + stalls[k] + 1 := by
  have hsum := List.sum_take_succ stalls.toList k.val (by simp)
  rw [Vector.getElem_toList] at hsum
  simp only [loadTime, hsum, Fin.getElem_fin]
  omega

/-- A frame takes 50 busy ticks and all the stalls. -/
theorem loadTime_end (stalls : Vector Nat 25) : loadTime stalls 25 = 50 + stalls.toList.sum := by
  rw [loadTime, List.take_of_length_le (by simp)]

/-- A later pixel is loaded later. -/
theorem loadTime_mono (stalls : Vector Nat 25) : Monotone (loadTime stalls) := by
  intro k l h
  exact Nat.add_le_add (Nat.mul_le_mul_left 2 h) (List.monotone_sum_take stalls.toList h)

/-- The word of a pixel is taken before the run is over. -/
theorem transferTime_lt (stalls : Vector Nat 25) (k : PixelIndex) :
    loadTime stalls k + 1 + stalls[k] < loadTime stalls 25 := by
  have hle : loadTime stalls (k.val + 1) ≤ loadTime stalls 25 := loadTime_mono stalls (by omega)
  rw [loadTime_succ] at hle
  exact hle

/-- The peripheral lets pixel `k` wait for `stalls[k]` ticks in `L_PUSH` and then takes its word, and nobody resets the
block while it is busy; time is counted from the tick after the acceptance. -/
structure StallsBy (a : State) (stalls : Vector Nat 25) : Prop where
  running : ∀ k < loadTime stalls 25, (a.pinsAt k).rst = false
  ready : ∀ (k : PixelIndex) (j : Nat), j ≤ stalls[k] →
    (a.pinsAt (loadTime stalls k + 1 + j)).ledReady = decide (j = stalls[k])

section Pixels
variable {a : State} {stalls : Vector Nat 25}

/-- From its `L_LOAD` a pixel comes through its stalls to the tick on which its word is taken. -/
theorem StallsBy.waits (ha : StallsBy a stalls) {k : PixelIndex} (h : Sending a (loadTime stalls k) .lLoad k) :
    Sending a (loadTime stalls k + 1 + stalls[k]) .lPush k := by
  have hlt := transferTime_lt stalls k
  refine (h.load (ha.running _ (by omega))).stalls _ (fun m hm => ha.running m (by omega)) fun j hj => ?_
  rw [ha.ready k j hj.le, decide_eq_false hj.ne]

/-- The peripheral takes the word of a pixel after its stalls. -/
theorem StallsBy.takes (ha : StallsBy a stalls) (k : PixelIndex) :
    (a.pinsAt (loadTime stalls k + 1 + stalls[k])).ledReady = true := by
  rw [ha.ready k _ le_rfl, decide_eq_true rfl]

/-- Each pixel is loaded when those before it have been sent. -/
theorem StallsBy.loads (ha : StallsBy a stalls) (h0 : Sending a 0 .lLoad 0) (k : PixelIndex) :
    Sending a (loadTime stalls k) .lLoad k := by
  induction k using Fin.induction with
  | zero => exact h0
  | succ k ih =>
    have hnext := (ha.waits ih).transfer (ha.running _ (transferTime_lt stalls _)) (ha.takes _) k.isLt
    rwa [← loadTime_succ, Fin.coeSucc_eq_succ] at hnext

/-- The run ends with the transfer of the last pixel. -/
theorem StallsBy.completes (ha : StallsBy a stalls) (h0 : Sending a 0 .lLoad 0) :
    Sending a (loadTime stalls 25) .idle 24 ∧ (tickAlone^[loadTime stalls 25] a).done = true := by
  have hend := (ha.waits (ha.loads h0 24)).lastTransfer (ha.running _ (transferTime_lt stalls 24)) (ha.takes 24)
    (by decide)
  rwa [← loadTime_succ] at hend

end Pixels

/-- The inputs after the acceptance are those of one tick later. -/
theorem renderAccepted_pinsAt (s : State) (mask : Mask) (color : Color) (k : Nat) :
    (s.renderAccepted mask color).pinsAt k = s.pinsAt (k + 1) :=
  pinsAt_succ_of s _ k rfl rfl

/-- A RENDER starts with pixel 0 in `L_LOAD`. -/
theorem sending_renderAccepted {s : State} (hv : s.ledValid = false) (mask : Mask) (color : Color) :
    Sending (s.renderAccepted mask color) 0 .lLoad 0 :=
  ⟨by simp, rfl, rfl, rfl, iff_of_false (by simpa [State.renderAccepted] using hv) (by simp [State.renderAccepted]),
    rfl, rfl, rfl⟩

/-- Settles O45: from the acceptance on, pixel by pixel, the serializer is busy with its frame until the last word is
taken. -/
theorem renderRunsToCompletion : Obligations.RenderRunsToCompletion := by
  intro s mask color stalls hp hv hr hl
  have hstalls : StallsBy (s.renderAccepted mask color) stalls := by
    refine ⟨fun k hk => ?_, fun k j hj => ?_⟩ <;> rw [renderAccepted_pinsAt]
    · rw [loadTime_end] at hk
      exact hr _ (by omega)
    · rw [← hl k j hj, loadTime]
      congr 2
      omega
  obtain ⟨⟨hbusy, hphase, -, hkeeps⟩, hdone⟩ := hstalls.completes (sending_renderAccepted hv mask color)
  rw [loadTime_end] at hbusy hphase hkeeps hdone
  have hwords := hkeeps.words.trans (renderAccepted_words hv mask color)
  rw [State.toSend, hphase, List.append_nil] at hwords
  refine ⟨_, _, exec_render_of_idle hp (by rw [← pinsAt_zero, hr 0 (by omega)]) mask color, run_of_busy hbusy,
    fun n v hn hrun => ?_, hphase, hdone, ?_, ?_, hwords, hkeeps.col, hkeeps.key, hkeeps.program⟩
  · rw [run_of_busy fun m hm => hbusy m (hm.trans hn)] at hrun
    cases hrun
    exact hbusy n hn
  · exact Bool.eq_false_iff.2 fun h => by cases hphase.symm.trans (hkeeps.led.1 h)
  · have htick : (s.renderAccepted mask color).tick = s.tick + 1 := rfl
    rw [iterate_tickAlone_tick, htick]
    omega

end Sys2Proof.Machine
end

section
/-! The keypad scanner (42_keypad_scanner.md). At the tick level: what the columns can do in a step, that the scanner
and the serializer leave each other's registers alone, and the exact ticks of the scanner's phases. At the operation
level: what the procedure returns for the rows' answers. -/

namespace Sys2Proof.Machine

/-! ### The columns (42_keypad_scanner.md R121) -/

section Columns
variable {s t : State}

/-- The columns are all low, or the one of `c` is driven (10_state.md R31 a to c). -/
theorem Invariant.col_cases (h : Invariant s) : s.col = 0b0000#4 ∨ s.col = onehot s.c := by
  have hcols := h.cols
  cases hp : s.phase with
  | kDrive =>
    obtain ⟨-, -, hcol⟩ := (colsOk_kDrive hp).1 hcols
    exact (ite_eq_or_eq _ _ _).imp hcol.trans hcol.trans
  | kWait => exact .inr ((colsOk_kWait hp).1 hcols).1
  | idle => exact .inl (by simpa [State.colsOk, hp] using hcols)
  | lLoad => exact .inl (by simpa [State.colsOk, hp] using hcols)
  | lPush => exact .inl (by simpa [State.colsOk, hp] using hcols)
  | kSample => exact .inr (by simpa [State.colsOk, hp] using hcols)
  | kResample => exact .inr (by simpa [State.colsOk, hp] using hcols)
  | kRelease => exact .inr (by simpa [State.colsOk, hp] using hcols)

/-- In IDLE all columns are low (10_state.md R31 a). -/
theorem Invariant.col_of_idle (h : Invariant s) (hp : s.phase = .idle) : s.col = 0b0000#4 := by
  simpa [State.colsOk, hp] using h.cols

/-- A row of the transition table that leaves a column driven keeps the column index. -/
theorem Transition.c_eq (h : Transition s t) (hcol : t.col ≠ 0b0000#4) : t.c = s.c := by
  cases h with
  | nextColumn => exact absurd rfl hcol
  | _ => rfl

/-- A step that finds and leaves a column driven keeps the column index. -/
theorem step_keeps_c (hs : Invariant s) (h : step s = .next t) (hsc : s.col ≠ 0b0000#4) (htc : t.col ≠ 0b0000#4) :
    t.c = s.c := by
  cases step_cases h with
  | reset => exact absurd rfl htc
  | busy _ _ hv => exact hv.c_eq htc
  | idle _ hp => exact absurd (hs.col_of_idle hp) hsc

end Columns

/-- Settles O33: a driven column is the column of `c`, before and after the step, and such a step keeps `c`. -/
theorem columnsChangeThroughAllLow : Obligations.ColumnsChangeThroughAllLow := by
  intro s t hinv h hsc htc
  have hs := (invariant_iff s).1 hinv
  have ht := (invariant_iff t).1 (everyStepKeepsTheInvariant s t hinv h)
  have hscol := hs.col_cases.resolve_left hsc
  have htcol := ht.col_cases.resolve_left htc
  exact ⟨by rw [htcol, hscol, step_keeps_c hs h hsc htc], s.c, hscol⟩

/-! ### The frames of the two units (42_keypad_scanner.md R133, 41_frame_renderer.md R105) -/

section Units
variable {s t : State}

/-- No row writes the host's program. -/
theorem Transition.program_eq (h : Transition s t) : t.program = s.program := by
  cases h <;> rfl

/-- The rows of a SCAN write neither the word on offer, nor the pixel index, nor do they draw. -/
theorem Transition.serializer_kept (h : Transition s t) (hl : s.phase ≠ .lLoad) (hp : s.phase ≠ .lPush) :
    t.ledWord = s.ledWord ∧ t.ledValid = s.ledValid ∧ t.i = s.i ∧ t.draws = s.draws := by
  cases h with
  | load h => exact absurd h hl
  | stalled h => exact absurd h hp
  | nextPixel h => exact absurd h hp
  | frameSent h => exact absurd h hp
  | _ => exact ⟨rfl, rfl, rfl, rfl⟩

/-- The rows of a RENDER write neither the columns, nor KEY, nor the scanner's counters. -/
theorem Transition.scanner_kept (h : Transition s t) (hp : s.phase = .lLoad ∨ s.phase = .lPush) :
    t.col = s.col ∧ t.key = s.key ∧ t.c = s.c ∧ t.r = s.r ∧ t.cnt = s.cnt := by
  cases h with
  | load => exact ⟨rfl, rfl, rfl, rfl, rfl⟩
  | stalled => exact ⟨rfl, rfl, rfl, rfl, rfl⟩
  | nextPixel => exact ⟨rfl, rfl, rfl, rfl, rfl⟩
  | frameSent => exact ⟨rfl, rfl, rfl, rfl, rfl⟩
  | _ => simp [*] at hp

/-- A busy step without reset is a row of the transition table and the bookkeeping of the tick. -/
theorem exists_transition_of_step (hr : s.pins.rst = false) (hp : s.phase ≠ .idle) (h : step s = .next t) :
    ∃ v, Transition s.clearDone v ∧ t = endTick s v := by
  cases step_cases h with
  | reset hr' => simp [hr] at hr'
  | busy _ _ hv => exact ⟨_, hv, rfl⟩
  | idle _ hp' => exact absurd hp' hp

end Units

/-- Settles O38: a busy step is a row of the transition table, and no row of one unit writes a register of the other, an
operand or the program. -/
theorem unitsLeaveEachOtherAlone : Obligations.UnitsLeaveEachOtherAlone := by
  intro s t hr h
  refine ⟨fun hp => ?_, fun hp => ?_⟩
  · obtain ⟨hidle, hload, hpush⟩ : s.phase ≠ .idle ∧ s.phase ≠ .lLoad ∧ s.phase ≠ .lPush := by
      obtain hp | hp | hp | hp | hp := hp <;> simp [hp]
    obtain ⟨v, hv, rfl⟩ := exists_transition_of_step hr hidle h
    obtain ⟨hword, hvalid, hi, hdraws⟩ := hv.serializer_kept hload hpush
    exact ⟨hword, hvalid, hv.operands.1, hv.operands.2, hi, hv.program_eq, hdraws⟩
  · have hidle : s.phase ≠ .idle := by
      obtain hp | hp := hp <;> simp [hp]
    obtain ⟨v, hv, rfl⟩ := exists_transition_of_step hr hidle h
    obtain ⟨hcol, hkey, hc, hrow, hcnt⟩ := hv.scanner_kept hp
    exact ⟨hcol, hkey, hc, hrow, hcnt, hv.operands.1, hv.operands.2, hv.program_eq⟩

/-! ### The procedure's rows and columns (42_keypad_scanner.md R120 to R125) -/

/-- The events of inactive rows of a column: a first read of 0 each. -/
def inactiveRows (c : Index4) (rs : List Index4) : List Event := rs.map fun r => .read c r false false

/-- The events of a confirmed press: two reads of 1. -/
def confirmedRow (c r : Index4) : List Event := [.read c r false true, .read c r true true]

/-- The events of a column that is driven, read as `es` and released. -/
def columnEvents (c : Index4) (es : List Event) : List Event :=
  Event.cols (onehot c) :: es ++ [Event.cols 0b0000#4]

/-- The events of a column on which no row is active. -/
def inactiveColumn (c : Index4) : List Event := columnEvents c (inactiveRows c [0, 1, 2, 3])

theorem readCount_append (es es' : List Event) : readCount (es ++ es') = readCount es + readCount es' :=
  List.countP_append

theorem readCount_confirmedRow (c r : Index4) : readCount (confirmedRow c r) = 2 := rfl

/-- Driving and releasing a column reads no row. -/
theorem readCount_columnEvents (c : Index4) (es : List Event) : readCount (columnEvents c es) = readCount es := by
  simp [columnEvents, readCount]

theorem readCount_inactiveRows (c : Index4) (rs : List Index4) : readCount (inactiveRows c rs) = rs.length := by
  rw [readCount, inactiveRows, List.countP_map]
  exact List.countP_eq_length.2 fun _ _ => rfl

theorem readCount_inactiveColumns (cs : List Index4) : readCount (cs.flatMap inactiveColumn) = 4 * cs.length := by
  induction cs with
  | nil => rfl
  | cons c cs ih =>
    have hcol : readCount (inactiveColumn c) = 4 := rfl
    rw [List.flatMap_cons, readCount_append, ih, hcol, List.length_cons]
    omega

/-- Inactive rows are passed, a tick each (42_keypad_scanner.md R122). -/
theorem sweepRows_append_of_inactive {ans : RowAnswer} {c : Index4} {rs : List Index4}
    (h : ∀ r ∈ rs, ∀ t, ans t c r false = false) (d : Nat) (rs' : List Index4) (t : Nat) :
    sweepRows ans d c (rs ++ rs') t =
      let q := sweepRows ans d c rs' (t + rs.length)
      ⟨inactiveRows c rs ++ q.events, q.key, q.time⟩ := by
  induction rs generalizing t with
  | nil => rfl
  | cons r rs ih =>
    obtain ⟨hr, hrs⟩ := List.forall_mem_cons.1 h
    rw [List.cons_append, sweepRows_inactive (hr t), ih hrs, List.length_cons, Nat.add_assoc, Nat.add_comm 1]
    rfl

/-- Columns on which no row is active are passed, `S + 5` ticks each (42_keypad_scanner.md R125, R129). -/
theorem sweepCols_append_of_inactive {ans : RowAnswer} {cs : List Index4}
    (h : ∀ c ∈ cs, ∀ t r, ans t c r false = false) (st d : Nat) (cs' : List Index4) (t : Nat) :
    sweepCols ans st d (cs ++ cs') t =
      let w := sweepCols ans st d cs' (t + cs.length * (st + 5))
      ⟨cs.flatMap inactiveColumn ++ w.events, w.key, w.time⟩ := by
  induction cs generalizing t with
  | nil => simp
  | cons c cs ih =>
    obtain ⟨hc, hcs⟩ := List.forall_mem_cons.1 h
    have hrows : sweepRows ans d c [0, 1, 2, 3] (t + st) = ⟨inactiveRows c [0, 1, 2, 3], none, t + st + 4⟩ :=
      sweepRows_append_of_inactive (rs := [0, 1, 2, 3]) (fun r _ t => hc t r) d [] (t + st)
    have htime : t + st + 4 + 1 + cs.length * (st + 5) = t + (cs.length + 1) * (st + 5) := by ring
    rw [List.cons_append, sweepCols_of_none (by rw [hrows]), hrows]
    dsimp only
    rw [ih hcs, htime]
    simp [inactiveColumn, columnEvents]

/-- Settles O50: all four columns are passed. -/
theorem noRowActiveGivesNone : Obligations.NoRowActiveGivesNone := by
  intro st d ans h
  have hsweep : opScan ans st d = ⟨[0, 1, 2, 3].flatMap inactiveColumn, none, 1 + 4 * (st + 5)⟩ :=
    sweepCols_append_of_inactive (cs := [0, 1, 2, 3]) (fun c _ t r => h t c r false) st d [] 1
  rw [hsweep]
  exact ⟨rfl, Nat.add_comm .., readCount_inactiveColumns _, rfl⟩

/-- The indices in order: as many as `k` says before it, then `k`. -/
theorem indices_split (k : Index4) :
    ∃ ks ks' : List Index4, [0, 1, 2, 3] = ks ++ k :: ks' ∧ ks.length = k.val ∧ k ∉ ks := by
  refine ⟨(List.finRange 4).take k, (List.finRange 4).drop (k + 1), ?_⟩
  revert k
  decide

/-- A sweep in which exactly one position reads 1, whatever the read: the columns before it are passed, then the rows
before it, then its two reads confirm it (42_keypad_scanner.md R128, R129). -/
theorem opScan_of_single {ans : RowAnswer} {r c : Index4}
    (h : ∀ t c' r' k, ans t c' r' k = (decide (c' = c) && decide (r' = r))) (st d : Nat) :
    ∃ cs rs : List Index4, cs.length = c.val ∧ rs.length = r.val ∧
      opScan ans st d =
        ⟨cs.flatMap inactiveColumn ++ columnEvents c (inactiveRows c rs ++ confirmedRow c r),
          some (r, c), 1 + cs.length * (st + 5) + st + rs.length + d + 2⟩ := by
  obtain ⟨cs, cs', hcs, hclen, hc⟩ := indices_split c
  obtain ⟨rs, rs', hrs, hrlen, hr⟩ := indices_split r
  refine ⟨cs, rs, hclen, hrlen, ?_⟩
  have hrows (t : Nat) : sweepRows ans d c [0, 1, 2, 3] t =
      ⟨inactiveRows c rs ++ confirmedRow c r, some (r, c), t + rs.length + d + 2⟩ := by
    have hbefore : ∀ r' ∈ rs, ∀ t, ans t c r' false = false := fun r' hr' t => by
      simp [h, ne_of_mem_of_not_mem hr' hr]
    rw [hrs, sweepRows_append_of_inactive hbefore, sweepRows_confirmed (by simp [h]) (by simp [h])]
    rfl
  have hbefore : ∀ c' ∈ cs, ∀ t r', ans t c' r' false = false := fun c' hc' t r' => by
    simp [h, ne_of_mem_of_not_mem hc' hc]
  rw [opScan, hcs, sweepCols_append_of_inactive hbefore, sweepCols_of_some (by rw [hrows]), hrows]
  rfl

/-- A one-hot vector is high at its own column only. -/
theorem getLsbD_onehot (c c' : Index4) : (onehot c).getLsbD c'.val = decide (c = c') := by
  revert c c'
  decide

/-- With one key pressed the ideal matrix lets exactly that position read 1 (20_memory.md R53). -/
theorem single_of_idealMatrix {ans : RowAnswer} {r c : Index4}
    (h : ∀ t c' r' k, ∃ rowIn,
      idealMatrix [(r, c)] (onehot c') rowIn = true ∧ ans t c' r' k = rowIn.getLsbD r'.val)
    (t : Nat) (c' r' : Index4) (k : Bool) : ans t c' r' k = (decide (c' = c) && decide (r' = r)) := by
  obtain ⟨rowIn, hm, ha⟩ := h t c' r' k
  rw [ha, (idealMatrixWithOneKey r c (onehot c') rowIn).1 hm r', getLsbD_onehot, Bool.and_comm]

/-- Settles O49: under either premise exactly the reads of one position return 1. -/
theorem singleKeyIsFound : Obligations.SingleKeyIsFound := by
  intro st d r c ans h
  have hsingle : ∀ t c' r' k, ans t c' r' k = (decide (c' = c) && decide (r' = r)) :=
    h.elim id single_of_idealMatrix
  obtain ⟨cs, rs, hc, hr, hsweep⟩ := opScan_of_single hsingle st d
  rw [hsweep]
  refine ⟨rfl, ?_, ?_⟩
  · dsimp only
    rw [hc, hr]
    omega
  · simp only [readCount_append, readCount_inactiveColumns, readCount_columnEvents, readCount_inactiveRows,
      readCount_confirmedRow, hc, hr]
    omega

/-! ### The key of a sweep (42_keypad_scanner.md R123, R127) -/

/-- A key of a column's rows is a position of that column, confirmed by its second read. -/
theorem confirmed_of_sweepRows_key {ans : RowAnswer} {d : Nat} {c : Index4} {rs : List Index4} {t : Nat}
    {k : Index4 × Index4} (h : (sweepRows ans d c rs t).key = some k) : ∃ t', ans t' k.2 k.1 true = true := by
  induction rs generalizing t with
  | nil => cases h
  | cons r rs ih =>
    cases h1 : ans t c r false with
    | false =>
      rw [sweepRows_inactive h1] at h
      exact ih h
    | true =>
      cases h2 : ans (t + d + 1) c r true with
      | false =>
        rw [sweepRows_unconfirmed h1 h2] at h
        exact ih h
      | true =>
        rw [sweepRows_confirmed h1 h2] at h
        cases h
        exact ⟨_, h2⟩

/-- A key of a sweep was confirmed by its second read. -/
theorem confirmed_of_sweepCols_key {ans : RowAnswer} {st d : Nat} {cs : List Index4} {t : Nat}
    {k : Index4 × Index4} (h : (sweepCols ans st d cs t).key = some k) : ∃ t', ans t' k.2 k.1 true = true := by
  induction cs generalizing t with
  | nil => cases h
  | cons c cs ih =>
    cases hq : (sweepRows ans d c [0, 1, 2, 3] (t + st)).key with
    | some k' =>
      rw [sweepCols_of_some hq] at h
      cases h
      exact confirmed_of_sweepRows_key hq
    | none =>
      rw [sweepCols_of_none hq] at h
      exact ih h

/-- Settles O51: a reported position was confirmed by a second read. -/
theorem unconfirmedReadIsNotReported : Obligations.UnconfirmedReadIsNotReported := by
  intro st d ans r c h hkey
  obtain ⟨t, ht⟩ := confirmed_of_sweepCols_key hkey
  simp [h] at ht

section FirstConfirmed
variable (rd : Index4 → Index4 → Bool → Bool)

/-- Both reads of a (row, column) position return 1. -/
def confirmed (p : Index4 × Index4) : Bool := rd p.2 p.1 false && rd p.2 p.1 true

/-- The key of a column's rows is the first confirmed one, at whatever time they are read. -/
theorem sweepRows_key_eq_find (d : Nat) (c : Index4) (rs : List Index4) (t : Nat) :
    (sweepRows (fun _ c r k => rd c r k) d c rs t).key = (rs.map fun r => (r, c)).find? (confirmed rd) := by
  induction rs generalizing t with
  | nil => rfl
  | cons r rs ih =>
    rw [List.map_cons]
    cases h1 : rd c r false with
    | false =>
      rw [sweepRows_inactive h1, List.find?_cons_of_neg (by simp [confirmed, h1])]
      exact ih _
    | true =>
      cases h2 : rd c r true with
      | false =>
        rw [sweepRows_unconfirmed h1 h2, List.find?_cons_of_neg (by simp [confirmed, h2])]
        exact ih _
      | true => rw [sweepRows_confirmed h1 h2, List.find?_cons_of_pos (by simp [confirmed, h1, h2])]

/-- The key of a sweep is the first confirmed position, columns outermost. -/
theorem sweepCols_key_eq_find (st d : Nat) (cs : List Index4) (t : Nat) :
    (sweepCols (fun _ c r k => rd c r k) st d cs t).key =
      (cs.flatMap fun c => [0, 1, 2, 3].map fun r => (r, c)).find? (confirmed rd) := by
  induction cs generalizing t with
  | nil => rfl
  | cons c cs ih =>
    have hrows := sweepRows_key_eq_find rd d c [0, 1, 2, 3] (t + st)
    rw [List.flatMap_cons, List.find?_append, ← hrows]
    cases hq : (sweepRows (fun _ c r k => rd c r k) d c [0, 1, 2, 3] (t + st)).key with
    | some k => rw [sweepCols_of_some hq, Option.some_or]
    | none =>
      rw [sweepCols_of_none hq, Option.none_or]
      exact ih _

end FirstConfirmed

/-- Settles O52: the procedure visits the positions in that order and stops at the first confirmed one. -/
theorem firstConfirmedKeyWins : Obligations.FirstConfirmedKeyWins := by
  intro st d rd
  exact sweepCols_key_eq_find rd st d [0, 1, 2, 3] 1

/-! ### The acceptance of a command (10_state.md section 8) -/

/-- In IDLE without reset a command is accepted, and nothing but what its acceptance writes and `done` changes. -/
theorem offer_of_idle {i : Instr} {acc : State → State} (ha : Accepts i acc) {s : State} (hp : s.phase = .idle)
    (hr : s.pins.rst = false) :
    offer i acc s = .next (acc { s.afterTick (.accept i :: s.emitted) with done := false }) := by
  have htick : offer i acc s = .next (endTick s ((acc s.clearDone).log (.accept i))) := by
    rw [offer, clock_of_run _ s hr, State.clearDone_phase, if_pos hp]
  rw [htick]
  cases ha <;>
    simp [endTick, wireEvents_eq, State.colsTo, acceptScan, acceptRender, State.log, State.clearDone, State.afterTick]

/-- Settles O1: both are accepted and write nothing. -/
theorem nopAndReservedChangeNothing : Obligations.NopAndReservedChangeNothing := by
  intro s hp hr
  exact ⟨offer_of_idle .nop hp hr, offer_of_idle .reserved hp hr⟩

/-- Settles O2: the acceptance writes what `acceptScan` says. -/
theorem scanAcceptanceStartsSweep : Obligations.ScanAcceptanceStartsSweep := by
  intro s hp hr
  exact offer_of_idle .scan hp hr

/-! ### The ticks of the scanner's phases (10_state.md section 8) -/

/-- Settles O10: the columns fall, and the sweep goes on or ends without a key. -/
theorem coldriveReleasesTheColumn : Obligations.ColdriveReleasesTheColumn := by
  intro s hp hr
  rw [exec_coldrive_zero, access_of_run (beq_of_eq hp) hr]
  unfold releaseTick
  by_cases hc : s.c.val < 3
  · simp [hc, endTick, wireEvents_eq, State.clearDone, State.afterTick]
  · simp [hc, endTick, wireEvents_eq, deliverKey, resultOf, State.clearDone, State.afterTick, hp]

/-- Settles O11: the wires show nothing but a transfer, and the read is recorded. -/
theorem firstReadOfRow : Obligations.FirstReadOfRow := by
  intro s b hp hr
  rw [exec_rowread_of_ne_kResample s b (by simp [hp]), access_of_run (beq_of_eq hp) hr]
  cases b with
  | true =>
    rw [sampleTick_true, endTick, wireEvents_eq]
    simp [State.colsTo, State.log, State.clearDone, State.afterTick]
  | false =>
    by_cases hrow : s.r.val < 3 <;>
      simp [sampleTick_false, hrow, endTick, wireEvents_eq, State.colsTo, State.log, State.clearDone, State.afterTick]

/-- Settles O12: a confirmed press ends the sweep with `deliverKey`; else the read is recorded and the sweep goes on. -/
theorem secondReadOfRow : Obligations.SecondReadOfRow := by
  intro s b hp hr
  rw [exec_rowread_of_kResample s b hp, access_of_run rfl hr]
  cases b with
  | true =>
    rw [resampleTick_true, endTick, wireEvents_eq]
    simp [deliverKey, resultOf, State.log, State.clearDone, State.afterTick, hp]
  | false =>
    by_cases hrow : s.r.val < 3 <;>
      simp [resampleTick_false, hrow, endTick, wireEvents_eq, State.colsTo, State.log, State.clearDone, State.afterTick]

/-- Settles O18: the step is the sequencer's own tick, which counts. -/
theorem waitCountsDown : Obligations.WaitCountsDown := by
  intro s hp hr
  have hadv : advance s.clearDone = waitTick s.clearDone := by simp [advance, hp]
  rw [step_of_busy s (by simp [hp]), tickAlone, clock_of_run _ s hr, hadv, waitTick_eq, endTick, wireEvents_eq]
  simp [State.colsTo, State.clearDone, State.afterTick, hp]

end Sys2Proof.Machine
end

section
/-! The host sequences (43_host_sequences.md): what each puts in front of the host's program, what the host's moves
after a SCAN do, and the step of a pause. -/

namespace Sys2Proof.Machine

/-! ### What the host does with KEY (43_host_sequences.md R153, R154) -/

section ReadKey
variable {s : State}

/-- After a SCAN without a key the host reads `None`. -/
theorem hostReadKey_of_noKey (hk : s.keyValid = false) : s.hostReadKey = none := by
  simp [State.hostReadKey, hk]

/-- After a SCAN with a key the host reads its symbol. -/
theorem hostReadKey_of_key (hk : s.keyValid = true) : s.hostReadKey = some s.keySym := by
  simp [State.hostReadKey, hk]

/-- Without a key the wait for release is over. -/
theorem untilNone_of_noKey (hk : s.keyValid = false) : untilNone s = s.setHost none s.hostMode := by
  simp [untilNone, hostReadKey_of_noKey hk]

/-- With a key the host scans again. -/
theorem untilNone_of_key (hk : s.keyValid = true) :
    untilNone s = (s.setHost (some s.keySym) s.hostMode).push awaitOps := by
  simp [untilNone, hostReadKey_of_key hk]

/-- Without a key DISPATCH goes round. -/
theorem branchOnKey_of_noKey (table : ActionTable) (u : UnmappedAction) (hk : s.keyValid = false) :
    branchOnKey table u s = (s.setHost none s.hostMode).push (nextRound table u) := by
  rw [branchOnKey, hostReadKey_of_noKey hk]

/-- With a key DISPATCH takes the action for its symbol, waits for the release, and goes round. -/
theorem branchOnKey_of_key (table : ActionTable) (u : UnmappedAction) (hk : s.keyValid = true) :
    branchOnKey table u s = (s.setHost (some s.keySym) .keyDetected).push
      (actionOps (actionFor table u s.keySym) ++ releaseOps ++ nextRound table u) := by
  rw [branchOnKey, hostReadKey_of_key hk]

end ReadKey

/-! ### AWAIT_RELEASE (43_host_sequences.md R154) -/

/-- Settles O21: the test after the SCAN puts another round in front, or nothing. -/
theorem awaitReleaseScansUntilNone : Obligations.AwaitReleaseScansUntilNone := by
  refine ⟨fun s => rfl, fun s rest hp hr hs hg => ?_⟩
  rw [step_of_hostMove s .untilNone rest nofun hp hr hs hg, hostMove]
  by_cases hk : s.keyValid = true
  · rw [if_pos hk, untilNone_of_key (s := s.setProgram rest) hk]
    rfl
  · rw [if_neg hk, untilNone_of_noKey (s := s.setProgram rest) (Bool.eq_false_iff.2 hk)]
    rfl

/-! ### Commands at the head of the program (log 7) -/

/-- A RENDER at the head of the program is accepted. -/
theorem step_of_render {s : State} {mask : Mask} {color : Color} {rest : List HostOp} (hp : s.phase = .idle)
    (hr : s.pins.rst = false) (hs : s.sleep = 0) (hg : s.program = .issue (.render mask color) :: rest) :
    step s = .next ((s.setProgram rest).renderAccepted mask color) :=
  (stepRunsTheProgramHead s _ rest hp hr hs hg).trans (exec_render_of_idle (s := s.setProgram rest) hp hr mask color)

/-- A FILL at the head of the program is accepted as the RENDER it is (41_frame_renderer.md R106). -/
theorem step_of_fill {s : State} {color : Color} {rest : List HostOp} (hp : s.phase = .idle)
    (hr : s.pins.rst = false) (hs : s.sleep = 0) (hg : s.program = .issue (.fill color) :: rest) :
    step s = .next ((s.setProgram rest).renderAccepted Mask.ones color) :=
  (stepRunsTheProgramHead s _ rest hp hr hs hg).trans (exec_render_of_idle (s := s.setProgram rest) hp hr _ color)

/-! ### DISPATCH (43_host_sequences.md R153, R156, R158) -/

/-- Settles O22: without a key the branch puts the pause and the next round in front. -/
theorem dispatchPollsInIdle : Obligations.DispatchPollsInIdle := by
  refine ⟨fun s table u => rfl, fun s table u rest hp hr hs hg hk => ?_⟩
  rw [step_of_hostMove s (.branchOnKey table u) rest nofun hp hr hs hg, hostMove,
    branchOnKey_of_noKey (s := s.setProgram rest) table u hk]
  rfl

/-- The entry of a symbol is its action. -/
theorem actionFor_of_entry {table : ActionTable} (u : UnmappedAction) {sym : Byte} {act : Action}
    (h : table.lookup sym = some act) : actionFor table u sym = act := by
  simp only [actionFor, h]

/-- The digits' codes as numbers (30_encoding.md R67). -/
theorem isDigit_iff (sym : Byte) : isDigit sym = true ↔ 0x30 ≤ sym.toNat ∧ sym.toNat ≤ 0x39 := by
  simp [isDigit, BitVec.le_def]

/-- A symbol with no entry is OFF for a digit under the variant, and nothing otherwise (43_host_sequences.md R158). -/
theorem actionOps_of_noEntry {table : ActionTable} (u : UnmappedAction) {sym : Byte} (h : table.lookup sym = none) :
    actionOps (actionFor table u sym) =
      if u = .offForDigits ∧ 0x30 ≤ sym.toNat ∧ sym.toNat ≤ 0x39 then [.issue .off] else [] := by
  simp only [← isDigit_iff, actionFor, h]
  cases u with
  | noOp => rfl
  | offForDigits => cases hd : isDigit sym <;> rfl

/-- The move of the host after a SCAN with a key, the actions of the symbol at the front. -/
theorem step_branchOnKey_of_key {s : State} {table : ActionTable} {u : UnmappedAction} {ops rest : List HostOp}
    (hp : s.phase = .idle) (hr : s.pins.rst = false) (hs : s.sleep = 0)
    (hg : s.program = .branchOnKey table u :: rest) (hk : s.keyValid = true)
    (hops : actionOps (actionFor table u s.keySym) = ops) :
    step s = .next { s with
      hostKey := some s.keySym
      hostMode := .keyDetected
      program := ops ++ (releaseOps ++ nextRound table u) ++ rest } := by
  rw [step_of_hostMove s (.branchOnKey table u) rest nofun hp hr hs hg, hostMove,
    branchOnKey_of_key (s := s.setProgram rest) table u hk, State.setProgram_keySym, hops, List.append_assoc ops]
  rfl

/-- Settles O24: a symbol with no entry has no operations, or OFF. -/
theorem unmappedKeyStillAwaitsRelease : Obligations.UnmappedKeyStillAwaitsRelease := by
  intro s table u rest hp hr hs hg hk hnone
  exact step_branchOnKey_of_key hp hr hs hg hk (actionOps_of_noEntry u hnone)

/-- The byte of 0.2 (40_color_encoder.md R91). -/
theorem truncByte_fifth : truncByte (1 / 5) = 0x33#8 :=
  (truncByte_eq_iff (by norm_num [inRange]) _).2 (by norm_num)

/-- Settles O23: the operations of an entry's action stand in front, and a FILL there is accepted by the next step; the
other moves write what they say, and the fixed entries are those of `holdsFixedEntries`. -/
theorem dispatchedActionIsTaken : Obligations.DispatchedActionIsTaken := by
  refine ⟨fun s table u rest act hp hr hs hg hk hact => ?_, fun s table u rest color hp hr hs hg hk hact => ?_,
    fun s m rest hp hr hs hg => ?_, fun s rest hp hr hs hg => ?_, fun table u hwf => ?_, fun n => ?_⟩
  · rw [step_branchOnKey_of_key hp hr hs hg hk (congrArg actionOps (actionFor_of_entry u hact))]
    cases act <;> rfl
  · have hbranch := step_branchOnKey_of_key hp hr hs hg hk (congrArg actionOps (actionFor_of_entry u hact))
    exact ⟨_, _, hbranch, rfl, step_of_fill hp hr hs rfl, rfl, rfl, rfl, rfl, rfl, rfl, rfl, rfl, rfl⟩
  · exact step_of_hostMove s (.enter m) rest nofun hp hr hs hg
  · exact step_of_hostMove s .melody rest nofun hp hr hs hg
  · rw [Instr.wellFormed, Bool.and_eq_true, holdsFixedEntries_iff] at hwf
    obtain ⟨⟨hplay, hblue, hgrey⟩, -⟩ := hwf
    exact ⟨hplay, hblue, by rw [hgrey]; norm_num⟩
  · rw [opRender_replicate .grb n (by norm_num [pixelInRange, inRange])]
    simp only [one_mul, truncByte_fifth]
    rfl

/-! ### PAUSE (43_host_sequences.md R159) -/

/-- In a pause the host takes nothing up, and an idle block only lowers `done`. -/
theorem step_of_pause {s : State} (hp : s.phase = .idle) (hr : s.pins.rst = false) (hs : 0 < s.sleep) :
    step s = .next { s.afterTick s.emitted with done := false } := by
  have hfetch : fetch s = .tick := by rw [fetch_of_idle s hr hp, hostFetch, if_pos hs]
  have hquiet : wireEvents s s.clearDone = s.emitted := wireEvents_quiet s _ rfl rfl
  rw [step, hfetch, tickAlone_of_idle hr hp, endTick, hquiet]
  rfl

/-- Settles O25: `msTicks` rounds up, and a step in a pause is the bookkeeping of a tick. -/
theorem pauseOffersNothingForItsTime : Obligations.PauseOffersNothingForItsTime := by
  refine ⟨fun s ms => ⟨msTicks s.params ms, rfl, ?_⟩, fun s hp hr hs => step_of_pause hp hr hs⟩
  rw [msTicks]
  omega

/-! ### PLAY (43_host_sequences.md R150, R151) -/

/-- The five places of a vector, in order. -/
theorem toList_five {α : Type} (v : Vector α 5) : v.toList = [v[0], v[1], v[2], v[3], v[4]] := by
  refine List.ext_getElem (by simp) fun k hk _ => ?_
  have hk : k < 5 := by simpa using hk
  interval_cases k <;> rfl

/-- Settles O20: the five masks give their frames in order, and nothing but a rate of 0 is refused. -/
theorem playIsFiveRendersWithPauses : Obligations.PlayIsFiveRendersWithPauses := by
  refine fun s a => ⟨fun ha => ?_, ?_⟩
  · rw [exec, execPlay, if_neg ha, playOps, toList_five]
    rfl
  · rw [exec, execPlay]
    exact Ne.ite_eq_left_iff (by nofun)

end Sys2Proof.Machine
end

section
/-! The run of a PLAY (43_host_sequences.md R150, R151): its RENDERs and pauses one after the other, and the tick on
which a reset still reaches it. -/

namespace Sys2Proof.Machine

/-! ### Runs between states in which the block is idle -/

/-- A run goes on from where a shorter one ended. -/
theorem run_add {m n : Nat} {a b v : State} (h : Host.Core.run core m a = .next b)
    (h' : Host.Core.run core n b = .next v) : Host.Core.run core (m + n) a = .next v := by
  induction m generalizing a with
  | zero =>
    cases h
    rwa [Nat.zero_add]
  | succ m ih =>
    obtain ⟨c, hac, hc⟩ := exists_step_of_run_succ h
    rw [Nat.succ_add, run_succ hac, ih hc]

/-- `u` is reached from `s` in `steps` steps that take `ticks` ticks: the words `ws` have been sent and nothing was
scanned, the block is idle, and the host has `sleep` ticks of a pause and then the program `rest` before it. -/
structure HostReaches (s : State) (steps ticks : Nat) (ws : List (PixelIndex × Word)) (sleep : Nat)
    (rest : List HostOp) (u : State) : Prop where
  run : Host.Core.run core steps s = .next u
  pins : ∀ k, u.pinsAt k = s.pinsAt (ticks + k)
  phase : u.phase = .idle
  noWord : u.ledValid = false
  params : u.params = s.params
  key : u.key = s.key
  words : u.ledStream = s.ledStream ++ ws
  sleep : u.sleep = sleep
  program : u.program = rest

theorem HostReaches.refl {s : State} (hp : s.phase = .idle) (hv : s.ledValid = false) :
    HostReaches s 0 0 [] s.sleep s.program s :=
  ⟨rfl, fun k => by rw [Nat.zero_add], hp, hv, rfl, rfl, (List.append_nil _).symm, rfl, rfl⟩

theorem HostReaches.trans {s u v : State} {n n' t t' p p' : Nat} {ws ws' : List (PixelIndex × Word)}
    {g g' : List HostOp} (h : HostReaches s n t ws p g u) (h' : HostReaches u n' t' ws' p' g' v) :
    HostReaches s (n + n') (t + t') (ws ++ ws') p' g' v where
  run := run_add h.run h'.run
  pins k := by rw [h'.pins, h.pins, Nat.add_assoc]
  phase := h'.phase
  noWord := h'.noWord
  params := h'.params.trans h.params
  key := h'.key.trans h.key
  words := by rw [h'.words, h.words, List.append_assoc]
  sleep := h'.sleep
  program := h'.program

/-- No tick writes the build constants, and a host that does not pause stays awake. -/
theorem tickAlone_params_sleep {s : State} (hs : s.sleep = 0) :
    (tickAlone s).params = s.params ∧ (tickAlone s).sleep = 0 := by
  obtain ⟨hparams, -, hsleep, -⟩ := advance_keepsHost s.clearDone
  cases hr : s.pins.rst with
  | true => simp [tickAlone, clock_of_rst _ s hr]
  | false => simp [tickAlone, clock_of_run _ s hr, hparams, hsleep, hs]

/-- The same over any number of ticks. -/
theorem iterate_tickAlone_params_sleep {s : State} (hs : s.sleep = 0) (n : Nat) :
    (tickAlone^[n] s).params = s.params ∧ (tickAlone^[n] s).sleep = 0 := by
  induction n with
  | zero => exact ⟨rfl, hs⟩
  | succ n ih =>
    obtain ⟨hparams, hsleep⟩ := ih
    rw [Function.iterate_succ_apply', ← hparams]
    exact tickAlone_params_sleep hsleep

/-! ### The RENDER of a frame and its pause -/

section Play
variable {s : State} {rest : List HostOp}

/-- To a peripheral that is always ready no word waits. -/
theorem stallsBy_zero {a : State} (hr : ∀ k < 50, (a.pinsAt k).rst = false)
    (hl : ∀ k < 50, (a.pinsAt k).ledReady = true) : StallsBy a (Vector.replicate 25 0) := by
  refine ⟨hr, fun k j hj => ?_⟩
  have htime : loadTime (Vector.replicate 25 0) k + 1 + (Vector.replicate 25 0)[k] < 50 := transferTime_lt _ k
  rw [Fin.getElem_fin, Vector.getElem_replicate] at hj htime ⊢
  rw [hl _ (by omega), decide_eq_true (Nat.le_zero.1 hj)]

/-- The RENDER of a frame, to a peripheral that is always ready: its acceptance and 50 busy ticks (41_frame_renderer.md
R105). -/
theorem hostReaches_of_render {mask : Mask} {color : Color} (hp : s.phase = .idle) (hv : s.ledValid = false)
    (hs : s.sleep = 0) (hg : s.program = .issue (.render mask color) :: rest) (hin : frameInRange mask color = true)
    (hr : ∀ k < 51, (s.pinsAt k).rst = false) (hl : ∀ k < 51, (s.pinsAt k).ledReady = true) :
    ∃ u, HostReaches s 51 51 (frameWords s.params.order mask color) 0 rest u := by
  have hfirst := step_of_render hp (by rw [← pinsAt_zero, hr 0 (by omega)]) hs hg
  have hpins (k : Nat) : ((s.setProgram rest).renderAccepted mask color).pinsAt k = s.pinsAt (k + 1) :=
    renderAccepted_pinsAt _ mask color k
  have hready := stallsBy_zero (fun k hk => by rw [hpins, hr _ (by omega)]) fun k hk => by rw [hpins, hl _ (by omega)]
  have hstart := sending_renderAccepted (s := s.setProgram rest) hv mask color
  obtain ⟨⟨hbusy, hphase, -, hkeeps⟩, -⟩ := hready.completes hstart
  have hwords := hkeeps.words.trans (renderAccepted_words (s := s.setProgram rest) hv mask color)
  rw [State.toSend, hphase, List.append_nil, inRangeFrameIsExact _ _ mask color hin] at hwords
  have hawake : ((s.setProgram rest).renderAccepted mask color).sleep = 0 := congrArg (· - 1) hs
  obtain ⟨hparams, hsleep⟩ := iterate_tickAlone_params_sleep hawake 50
  exact ⟨_, {
    run := (run_succ hfirst 50).trans (run_of_busy hbusy)
    pins := fun k => by rw [iterate_tickAlone_pinsAt, hpins, Nat.add_right_comm]
    phase := hphase
    noWord := Bool.eq_false_iff.2 fun h => by cases hphase.symm.trans (hkeeps.led.1 h)
    params := hparams
    key := hkeeps.key
    words := hwords
    sleep := hsleep
    program := hkeeps.program }⟩

/-- The host takes up a pause, which takes no tick (log 6). -/
theorem hostReaches_of_issuePause {ms : Nat} (hp : s.phase = .idle) (hv : s.ledValid = false) (hs : s.sleep = 0)
    (hg : s.program = .issue (.pause ms) :: rest) (hr : s.pins.rst = false) :
    ∃ u, HostReaches s 1 0 [] (msTicks s.params ms) rest u :=
  ⟨_, {
    run := run_succ (stepRunsTheProgramHead s (.pause ms) rest hp hr hs hg) 0
    pins := fun k => by rw [Nat.zero_add]; rfl
    phase := hp
    noWord := hv
    params := rfl
    key := rfl
    words := (List.append_nil _).symm
    sleep := rfl
    program := rfl }⟩

/-- One tick of a pause of an idle block. -/
theorem hostReaches_of_pauseTick {n : Nat} (hp : s.phase = .idle) (hv : s.ledValid = false) (hs : s.sleep = n + 1)
    (hr : s.pins.rst = false) : ∃ u, HostReaches s 1 1 [] n s.program u := by
  have hstep := step_of_pause hp hr (by omega)
  rw [emitted_of_noWord hv] at hstep
  exact ⟨_, {
    run := run_succ hstep 0
    pins := fun k => by rw [Nat.add_comm]; exact pinsAt_succ_of s _ k rfl rfl
    phase := hp
    noWord := hv
    params := rfl
    key := rfl
    words := ledStream_of_events (evs := []) rfl
    sleep := congrArg (· - 1) hs
    program := rfl }⟩

/-- A pause lasts the ticks that are left of it. -/
theorem hostReaches_of_pause {n : Nat} (hp : s.phase = .idle) (hv : s.ledValid = false) (hs : s.sleep = n)
    (hr : ∀ k < n, (s.pinsAt k).rst = false) : ∃ u, HostReaches s n n [] 0 s.program u := by
  induction n generalizing s with
  | zero => exact ⟨s, hs ▸ .refl hp hv⟩
  | succ n ih =>
    obtain ⟨v, htick⟩ := hostReaches_of_pauseTick hp hv hs (by rw [← pinsAt_zero, hr 0 (by omega)])
    obtain ⟨u, hrest⟩ := ih htick.phase htick.noWord htick.sleep fun k hk => by rw [htick.pins, hr _ (by omega)]
    rw [htick.program] at hrest
    rw [Nat.add_comm n 1]
    exact ⟨u, htick.trans hrest⟩

/-- A frame of PLAY: the RENDER and its pause. A pause of no ticks is taken up on the tick after the frame's last. -/
theorem hostReaches_of_playFrame {a : Animation} {mask : Mask} {n : Nat} (hn : n = msTicks s.params (framePause a.fps))
    (hp : s.phase = .idle) (hv : s.ledValid = false) (hs : s.sleep = 0) (hg : s.program = playFrame a mask ++ rest)
    (hin : frameInRange mask a.color = true) (hr : ∀ k < 51 + n + (1 - n), (s.pinsAt k).rst = false)
    (hl : ∀ k < 51 + n, (s.pinsAt k).ledReady = true) :
    ∃ u, HostReaches s (52 + n) (51 + n) (frameWords s.params.order mask a.color) 0 rest u := by
  replace hg : s.program = .issue (.render mask a.color) :: .issue (.pause (framePause a.fps)) :: rest := hg
  obtain ⟨v, hrender⟩ := hostReaches_of_render hp hv hs hg hin (fun k hk => hr k (by omega)) fun k hk => hl k (by omega)
  obtain ⟨w, hissue⟩ := hostReaches_of_issuePause hrender.phase hrender.noWord hrender.sleep hrender.program
    (by rw [← pinsAt_zero, hrender.pins, hr _ (by omega)])
  rw [hrender.params, ← hn] at hissue
  have hsofar := hrender.trans hissue
  obtain ⟨u, hpause⟩ := hostReaches_of_pause hsofar.phase hsofar.noWord hsofar.sleep fun k hk => by
    rw [hsofar.pins, hr _ (by omega)]
  rw [hsofar.program] at hpause
  exact ⟨u, by simpa only [List.append_nil] using hsofar.trans hpause⟩

/-- Frame after frame. -/
theorem hostReaches_of_playFrames {a : Animation} {n : Nat} (masks : List Mask)
    (hn : n = msTicks s.params (framePause a.fps)) (hp : s.phase = .idle) (hv : s.ledValid = false) (hs : s.sleep = 0)
    (hg : s.program = masks.flatMap (playFrame a) ++ rest) (hin : ∀ m ∈ masks, frameInRange m a.color = true)
    (hr : ∀ k < masks.length * (51 + n) + (1 - n), (s.pinsAt k).rst = false)
    (hl : ∀ k < masks.length * (51 + n), (s.pinsAt k).ledReady = true) :
    ∃ u, HostReaches s (masks.length * (52 + n)) (masks.length * (51 + n))
      (masks.flatMap fun m => frameWords s.params.order m a.color) 0 rest u := by
  induction masks generalizing s with
  | nil => exact ⟨s, by simpa [hs, hg] using HostReaches.refl hp hv⟩
  | cons m masks ih =>
    obtain ⟨hm, hmasks⟩ := List.forall_mem_cons.1 hin
    rw [List.length_cons, Nat.succ_mul] at hr hl
    rw [List.flatMap_cons, List.append_assoc] at hg
    rw [List.length_cons, Nat.succ_mul, Nat.succ_mul, Nat.add_comm _ (52 + n), Nat.add_comm _ (51 + n)]
    obtain ⟨v, hframe⟩ := hostReaches_of_playFrame hn hp hv hs hg hm (fun k hk => hr k (by omega))
      fun k hk => hl k (by omega)
    obtain ⟨u, hrest⟩ := ih (hframe.params ▸ hn) hframe.phase hframe.noWord hframe.sleep hframe.program hmasks
      (fun k hk => by rw [hframe.pins, hr _ (by omega)]) fun k hk => by rw [hframe.pins, hl _ (by omega)]
    rw [hframe.params] at hrest
    exact ⟨u, hframe.trans hrest⟩

end Play

/-! ### PLAY as a whole -/

/-- PLAY of an in-range animation to a peripheral that is always ready: `Obligations.PlaySendsFiveFrames` with `rst` low
on the tick of the last step too, where the pauses have no ticks. -/
theorem exec_play_hostReaches {s : State} {a : Animation} {n : Nat} (hn : n = msTicks s.params (1000 / a.fps))
    (ha : a.fps ≠ 0) (hp : s.phase = .idle) (hv : s.ledValid = false) (hs : s.sleep = 0)
    (hin : ∀ m ∈ a.masks.toList, frameInRange m a.color = true)
    (hr : ∀ k < 5 * (51 + n) + (1 - n), (s.pinsAt k).rst = false)
    (hl : ∀ k < 5 * (51 + n), (s.pinsAt k).ledReady = true) :
    ∃ t u, exec (.play a) s = .next t ∧ HostReaches t (5 * (52 + n)) (5 * (51 + n))
      (a.masks.toList.flatMap fun m => frameWords s.params.order m a.color) 0 s.program u := by
  have hexec : exec (.play a) s = .next (s.push (playOps a)) := if_neg ha
  have hfive : a.masks.toList.length = 5 := Vector.length_toList
  obtain ⟨u, hu⟩ := hostReaches_of_playFrames (s := s.push (playOps a)) a.masks.toList hn hp hv hs rfl hin
    (by rwa [hfive]) (by rwa [hfive])
  rw [hfive] at hu
  exact ⟨_, u, hexec, hu⟩

/-- With pauses of no ticks the 260th step, which would take up the fifth pause, is a reset tick if `rst` is 1 on the
tick after the fifth frame: it empties the host's program. -/
theorem program_of_play_reset {s : State} {a : Animation} (hn : 0 = msTicks s.params (framePause a.fps))
    (hp : s.phase = .idle) (hv : s.ledValid = false) (hs : s.sleep = 0)
    (hin : ∀ m ∈ a.masks.toList, frameInRange m a.color = true) (hr : ∀ k < 255, (s.pinsAt k).rst = false)
    (hl : ∀ k < 255, (s.pinsAt k).ledReady = true) (hlast : (s.pinsAt 255).rst = true) :
    ∃ u, Host.Core.run core 260 (s.push (playOps a)) = .next u ∧ u.program = [] := by
  rw [toList_five] at hin
  have hprogram : (s.push (playOps a)).program =
      [a.masks[0], a.masks[1], a.masks[2], a.masks[3]].flatMap (playFrame a) ++
        (playFrame a a.masks[4] ++ s.program) := by
    rw [State.push_program, playOps, toList_five]
    rfl
  obtain ⟨v, hfour⟩ := hostReaches_of_playFrames (s := s.push (playOps a)) _ hn hp hv hs hprogram
    (fun m hm => hin m (List.mem_append_left [_] hm)) (fun k hk => hr k (hk.trans (by simp)))
    fun k hk => hl k (hk.trans (by simp))
  obtain ⟨w, hfifth⟩ := hostReaches_of_render hfour.phase hfour.noWord hfour.sleep hfour.program
    (hin _ (by simp)) (fun k hk => by rw [hfour.pins]; exact hr _ (by simp; omega))
    fun k hk => by rw [hfour.pins]; exact hl _ (by simp; omega)
  have hframes := hfour.trans hfifth
  have hrst : w.pins.rst = true := by
    rw [← pinsAt_zero, hframes.pins]
    exact hlast
  exact ⟨_, run_succ_of_step hframes.run (step_of_rst w hrst), by rw [tickAlone, clock_of_rst _ w hrst]; rfl⟩

/-- A dark animation at 1001 frames a second, so that its pauses are of 0 ms (43_host_sequences.md R151). -/
def darkAnimation : Animation := ⟨Vector.replicate 5 Mask.zeros, Color.black, 1001⟩

/-- The block after reset, to which a host with more to do plays; on the 255 ticks of five frames the peripheral is
ready, and on the next `rst` is 1. -/
def resetAfterFrames : State :=
  { State.reset with
    program := [.untilNone]
    inputs := List.replicate 255 { Pins.quiet with ledReady := true } ++ [{ Pins.quiet with rst := true }] }

/-- The ticks of the five frames, and the one after them. -/
theorem resetAfterFrames_pinsAt :
    (∀ k < 255, (resetAfterFrames.pinsAt k).rst = false ∧ (resetAfterFrames.pinsAt k).ledReady = true) ∧
    (resetAfterFrames.pinsAt 255).rst = true := by decide +kernel

/-- Refutes O46: with pauses of no ticks the last of the steps falls on tick 255, where the premise on `rst` ends; in
`resetAfterFrames` that is a reset tick, and what stood behind PLAY is gone. -/
theorem not_playSendsFiveFrames : ¬ Obligations.PlaySendsFiveFrames := by
  intro h
  have hmasks : ∀ m ∈ darkAnimation.masks.toList, frameInRange m darkAnimation.color = true := by decide +kernel
  obtain ⟨hpins, hlast⟩ := resetAfterFrames_pinsAt
  obtain ⟨t, u, ht, hrun, -, -, hprogram, -⟩ := h resetAfterFrames darkAnimation (by decide) rfl rfl rfl
    (fun j => hmasks _ (by simp)) hpins
  obtain ⟨v, hv, hempty⟩ := program_of_play_reset (s := resetAfterFrames) (a := darkAnimation) rfl rfl rfl rfl hmasks
    (fun k hk => (hpins k hk).1) (fun k hk => (hpins k hk).2) hlast
  cases ht
  cases hv.symm.trans hrun
  cases hempty.symm.trans hprogram

end Sys2Proof.Machine
end

section
/-! Exceptions (60_exceptions.md): a command that meets a busy block, a peripheral that does not take its word, and the
bounds of a sweep. -/

namespace Sys2Proof.Machine

/-! ### Commands offered to a busy block -/

/-- A command offered to a busy block is not accepted: the tick is the one without it (60_exceptions.md R174 d). -/
theorem offer_of_busy (i : Instr) (acc : State → State) {s : State} (hp : s.phase ≠ .idle) :
    offer i acc s = .next (tickAlone s) :=
  congrArg Host.Outcome.next (clock_congr _ advance s (if_neg hp))

/-- Settles O6: each of the six is an `offer`. -/
theorem busyBlockTurnsCommandsAway : Obligations.BusyBlockTurnsCommandsAway :=
  fun _ _ _ hp => ⟨offer_of_busy _ _ hp, offer_of_busy _ _ hp, offer_of_busy _ _ hp, offer_of_busy _ _ hp,
    offer_of_busy _ _ hp, offer_of_busy _ _ hp⟩

/-! ### A peripheral that does not accept -/

/-- The step in `L_PUSH` to a peripheral that is not ready is the bookkeeping of a tick (60_exceptions.md R172). -/
theorem step_of_unready {s : State} (hp : s.phase = .lPush) (hr : s.pins.rst = false)
    (hl : s.pins.ledReady = false) : step s = .next { s.afterTick [] with done := false } := by
  rw [step_of_busy s (by simp [hp]), tickAlone_of_unready hr hp hl]

/-- Settles O41, by induction on the ticks: the first of them leads to a state that holds the same word for the rest. -/
theorem unreadyPeripheralHangsTheBlock : Obligations.UnreadyPeripheralHangsTheBlock := by
  intro n
  induction n with
  | zero => exact fun s hp hv _ => ⟨s, rfl, hp, hv, rfl, rfl, rfl, rfl⟩
  | succ n ih =>
    intro s hp hv h
    have hnow := h 0 n.succ_pos
    rw [pinsAt_zero] at hnow
    have hlater (k : Nat) : ({ s.afterTick [] with done := false } : State).pinsAt k = s.pinsAt (k + 1) :=
      pinsAt_succ_of s _ k rfl rfl
    obtain ⟨t, hrun, hphase, hvalid, hword, hi, hstream, htick⟩ := ih { s.afterTick [] with done := false } hp hv
      fun k hk => by rw [hlater]; exact h (k + 1) (by omega)
    refine ⟨t, (run_succ (step_of_unready hp hnow.1 hnow.2) n).trans hrun, hphase, hvalid, hword, hi, ?_, ?_⟩
    · rw [hstream, ledStream_of_events rfl, List.filterMap_nil, List.append_nil]
    · rw [htick, State.afterTick_tick]
      omega

/-! ### The bounds of a sweep -/

/-- A piece of a sweep that comes to `n` positions has ended by time `last`. It reads each of them twice at most, and at
least once if none of them is its key (42_keypad_scanner.md R122). -/
structure Sweep.Bounded (w : Sweep) (n last : Nat) : Prop where
  time_le : w.time ≤ last
  reads_le : readCount w.events ≤ 2 * n
  le_reads : w.key = none → n ≤ readCount w.events

/-- A bounded piece stays so with the `m` positions before it, which were read once or twice each in the events `es` and
gave no key. -/
theorem Sweep.Bounded.behind {q : Sweep} {n last : Nat} (hq : q.Bounded n last) {es : List Event} {m : Nat}
    (hmost : readCount es ≤ 2 * m) (hleast : m ≤ readCount es) {last' : Nat} (hlast : last ≤ last') :
    Sweep.Bounded ⟨es ++ q.events, q.key, q.time⟩ (n + m) last' where
  time_le := hq.time_le.trans hlast
  reads_le := by
    have := hq.reads_le
    rw [readCount_append]
    omega
  le_reads hk := by
    have := hq.le_reads hk
    rw [readCount_append]
    omega

/-- A row takes at most its two reads and the wait between them (42_keypad_scanner.md R122, R123). -/
theorem sweepRows_bounded (ans : RowAnswer) (d : Nat) (c : Index4) (rs : List Index4) (t : Nat) :
    (sweepRows ans d c rs t).Bounded rs.length (t + rs.length * (d + 2)) := by
  induction rs generalizing t with
  | nil => exact ⟨Nat.le_add_right t _, le_rfl, fun _ => le_rfl⟩
  | cons r rs ih =>
    rw [List.length_cons, Nat.succ_mul]
    cases h1 : ans t c r false with
    | false =>
      rw [sweepRows_inactive h1]
      refine (ih (t + 1)).behind (m := 1) ?_ ?_ ?_
      · exact Nat.le_succ 1
      · exact le_rfl
      · omega
    | true =>
      cases h2 : ans (t + d + 1) c r true with
      | false =>
        rw [sweepRows_unconfirmed h1 h2]
        refine (ih (t + d + 2)).behind (m := 1) ?_ ?_ ?_
        · exact le_rfl
        · exact Nat.le_succ 1
        · omega
      | true =>
        rw [sweepRows_confirmed h1 h2]
        have hreads : readCount [.read c r false true, .read c r true true] = 2 := readCount_confirmedRow c r
        exact ⟨by dsimp only; omega, by rw [hreads]; omega, nofun⟩

/-- A column takes at most its settling, its rows and its release (42_keypad_scanner.md R121, R122, R129). -/
theorem sweepCols_bounded (ans : RowAnswer) (st d : Nat) (cs : List Index4) (t : Nat) :
    (sweepCols ans st d cs t).Bounded (4 * cs.length) (t + cs.length * (st + 4 * (d + 2) + 1)) := by
  induction cs generalizing t with
  | nil => exact ⟨Nat.le_add_right t _, le_rfl, fun _ => le_rfl⟩
  | cons c cs ih =>
    obtain ⟨htime, hmost, hleast⟩ : (sweepRows ans d c [0, 1, 2, 3] (t + st)).Bounded 4 (t + st + 4 * (d + 2)) :=
      sweepRows_bounded ..
    have hcol := readCount_columnEvents c (sweepRows ans d c [0, 1, 2, 3] (t + st)).events
    rw [List.length_cons, Nat.succ_mul cs.length]
    cases hk : (sweepRows ans d c [0, 1, 2, 3] (t + st)).key with
    | none =>
      rw [sweepCols_of_none hk]
      refine (ih _).behind (m := 4) ?_ ?_ ?_
      · exact hcol.trans_le hmost
      · exact (hleast hk).trans_eq hcol.symm
      · omega
    | some k =>
      rw [sweepCols_of_some hk]
      exact ⟨by dsimp only; omega, (hcol.trans_le hmost).trans (by omega), nofun⟩

/-- Settles O48: the four columns have 16 positions. -/
theorem sweepAlwaysEnds : Obligations.SweepAlwaysEnds := by
  intro ans st d
  obtain ⟨htime, hmost, hleast⟩ : (opScan ans st d).Bounded 16 (1 + 4 * (st + 4 * (d + 2) + 1)) :=
    sweepCols_bounded ans st d [0, 1, 2, 3] 1
  exact ⟨htime.trans (by omega), hmost, hleast⟩

end Sys2Proof.Machine
end

section
/-! Reset and hazards (70_reset_and_hazards.md): the values after reset, a tick with `rst = 1` whatever is taken up on it,
and the ports that a busy block does not read. -/

namespace Sys2Proof.Machine

/-! ### Reset -/

/-- Settles O7: `State.reset` holds the values of the table, and its outputs are computed from them. -/
theorem resetStateIsQuiescent : Obligations.ResetStateIsQuiescent := by
  unfold Obligations.ResetStateIsQuiescent
  decide

/-- A well-formed operation that takes a tick is the tick with what it makes the sequencer do, never a refusal. -/
theorem exec_eq_clock {i : Instr} (hi : takesTick i = true) (hw : i.wellFormed = true) (s : State) :
    ∃ f, exec i s = .next (clock f s) := by
  cases i with
  | nop => exact ⟨_, rfl⟩
  | scan => exact ⟨_, rfl⟩
  | render mask color => exact ⟨_, rfl⟩
  | reserved => exact ⟨_, rfl⟩
  | fill color => exact ⟨_, rfl⟩
  | off => exact ⟨_, rfl⟩
  | encode red green blue => exact ⟨_, rfl⟩
  | coldrive v =>
    have hlegal : legalCols v = true := hw
    rw [exec, execColdrive, if_pos hlegal]
    split <;> exact ⟨_, rfl⟩
  | rowread active =>
    rw [exec, execRowread]
    split <;> exact ⟨_, rfl⟩
  | keyresult valid row col =>
    have hlegal : legalKey valid row col = true := hw
    rw [exec, execKeyresult, if_pos hlegal]
    split <;> exact ⟨_, rfl⟩
  | play anim => cases hi
  | awaitRelease => cases hi
  | dispatch table unmapped => cases hi
  | pause ms => cases hi

/-- The history of a reset tick: the columns fall, a word on offer may be taken, nothing completes
(70_reset_and_hazards.md R192). -/
theorem endTick_resetBlock_events (s : State) :
    (endTick s s.resetBlock).events = s.events ++ s.colsTo 0b0000#4 ++ s.emitted := by
  simp [wireEvents_eq]

/-- Settles O8: the step and exec are a tick each, and `rst` makes every tick the same (60_exceptions.md R174 b). -/
theorem resetTickOverridesEverything : Obligations.ResetTickOverridesEverything := by
  intro s hr
  have hstep : step s = .next (endTick s s.resetBlock) := by
    rw [step_of_rst s hr, tickAlone, clock_of_rst advance s hr]
  have hexec (i : Instr) (hi : takesTick i = true) (hw : i.wellFormed = true) :
      exec i s = .next (endTick s s.resetBlock) := by
    obtain ⟨f, hf⟩ := exec_eq_clock hi hw s
    rw [hf, clock_of_rst f s hr]
  have hevents := endTick_resetBlock_events s
  exact ⟨endTick s s.resetBlock, hstep, hexec, rfl, rfl, rfl, rfl, rfl, rfl, rfl, rfl, rfl, rfl, rfl, rfl, rfl, rfl, rfl,
    rfl, rfl, hevents⟩

/-! ### The ports that a busy block reads -/

/-- The same state with the input ports of this tick at `p`. -/
def State.setPins (s : State) (p : Pins) : State := { s with inputs := p :: s.inputs.tail }

/-- The input ports of two ticks that differ in the command and operand ports at most. -/
structure SameButCommand (p q : Pins) : Prop where
  rst : p.rst = q.rst
  rowIn : p.rowIn = q.rowIn
  ledReady : p.ledReady = q.ledReady

section Port
variable {s t : State} {p : Pins}

@[simp] theorem State.setPins_phase : (s.setPins p).phase = s.phase := rfl
@[simp] theorem State.setPins_pins : (s.setPins p).pins = p := rfl
@[simp] theorem State.setPins_clearDone : (s.setPins p).clearDone = s.clearDone.setPins p := rfl

theorem rowBit_setPins (h : SameButCommand p s.pins) : (s.setPins p).rowBit = s.rowBit :=
  congrArg (readRow · s.r) h.rowIn

theorem emitted_setPins (h : SameButCommand p s.pins) : (s.setPins p).emitted = s.emitted :=
  congrArg (fun ready => if s.ledValid && ready then [Event.emit s.i s.ledWord] else []) h.ledReady

/-- The sequencer reads no port but the row inputs and `led_ready`. -/
theorem advance_setPins (h : SameButCommand p s.pins) : advance (s.setPins p) = (advance s).setPins p := by
  rw [advance, advance, State.setPins_phase, rowBit_setPins h, State.setPins_pins, h.ledReady]
  cases s.phase with
  | idle => rfl
  | kDrive =>
    rw [driveTick_eq, driveTick_eq]
    rfl
  | kSample =>
    cases s.rowBit with
    | true => rfl
    | false =>
      rw [sampleTick_false, sampleTick_false, apply_ite (State.setPins · p)]
      rfl
  | kWait =>
    rw [waitTick_eq, waitTick_eq]
    rfl
  | kResample =>
    cases s.rowBit with
    | true => rfl
    | false =>
      rw [resampleTick_false, resampleTick_false, apply_ite (State.setPins · p)]
      rfl
  | kRelease =>
    unfold releaseTick
    rw [apply_ite (State.setPins · p)]
    rfl
  | lLoad => rfl
  | lPush =>
    unfold pushTick
    rw [apply_ite (State.setPins · p), apply_ite (State.setPins · p)]
    rfl

/-- The bookkeeping of a tick uses its ports up, and the wires show no port but `led_ready`. -/
theorem endTick_setPins (h : SameButCommand p s.pins) : endTick (s.setPins p) (t.setPins p) = endTick s t := by
  have hwires : wireEvents (s.setPins p) (t.setPins p) = wireEvents s t := by
    rw [wireEvents_eq, wireEvents_eq, emitted_setPins h]
    rfl
  rw [endTick, endTick, hwires]
  rfl

/-- A tick on which nothing is taken up does not read the command and operand ports. -/
theorem tickAlone_setPins (h : SameButCommand p s.pins) : tickAlone (s.setPins p) = tickAlone s := by
  cases hr : s.pins.rst with
  | true =>
    rw [tickAlone, tickAlone, clock_of_rst advance s hr, clock_of_rst advance (s.setPins p) (h.rst.trans hr)]
    exact endTick_setPins (t := s.resetBlock) h
  | false =>
    rw [tickAlone, tickAlone, clock_of_run advance s hr, clock_of_run advance (s.setPins p) (h.rst.trans hr),
      State.setPins_clearDone, advance_setPins (s := s.clearDone) h, endTick_setPins h]

end Port

/-- Settles O40: a busy step is the sequencer's tick, which does not read the port. -/
theorem busyBlockIgnoresTheCommandPort : Obligations.BusyBlockIgnoresTheCommandPort := by
  intro s p ins v op m c hin hp
  have hpins : s.pins = p := by simp [State.pins, hin]
  have hset (q : Pins) : { s with inputs := q :: ins } = s.setPins q := by simp [State.setPins, hin]
  rw [hset, step_of_busy s hp, step_of_busy (s.setPins _) hp, tickAlone_setPins]
  constructor <;> rw [hpins]

end Sys2Proof.Machine
end
